-- ==== Sys2Proof/Word.lean ====
section
/-! DEFINITION. The two word types of the block (00_scope.md R9: CAPTURE_W = 8, WORD_W = 32). -/

namespace Sys2Proof

/-- A capture byte or one byte of the output stream (00_scope.md R9, CAPTURE_W). -/
abbrev Byte := BitVec 8

/-- A decoded word (00_scope.md R9, WORD_W; R13 gives its signed reading, `BitVec.toInt`). -/
abbrev Word := BitVec 32

end Sys2Proof
end

