-- ==== Sys2Proof/Config.lean ====
section
/-! DEFINITION. The free values: what the rules do not state. Each stands only in states that no run from reset
reaches; none has a body, so nothing can be proved of it. CHUNK_BYTES (00_scope.md R11) is read by no rule and is
left out (log entry 12). -/

namespace Sys2Proof

/-- The bit a THRESH session samples when `tch` is 24 or more, so that `line` is 6 or 7 and the line table of
30_encoding.md R71 has no row: line number, capture byte. UNVERIFIED, free (safe); log entry 8. -/
opaque Config.unwiredLine : Nat → Byte → Bool

/-- The word that TDATA ORs into `acc` at an edge past `clockSkip + 23`, where the data bit index of
45_threshold_prescanner.md R159 is negative: `tch`, edge number, capture byte. UNVERIFIED, free (safe); log entry 9. -/
opaque Config.contribPastWord : BitVec 5 → BitVec 7 → Byte → Word

/-- The clock counter after edge 127 of a THRESH frame whose word ended at an earlier edge: 45_threshold_prescanner.md
R161 writes `n + 1`, and 128 is no value of `cc` (10_state.md R24): `tch`, capture byte. UNVERIFIED, free (safe);
log entry 10. -/
opaque Config.countPast127 : BitVec 5 → Byte → Option (BitVec 7)

/-- `scanned + 1` when `scanned` is 2^32-1, which 10_state.md R28 says cannot happen: the latched `budget`.
UNVERIFIED, free (safe); log entry 11. -/
opaque Config.scannedPastMax : BitVec 32 → BitVec 32

end Sys2Proof
end

