-- ==== Sys2Proof/Machine/Operands.lean ====
section
/-! DEFINITION. What the rules compute from bytes and numbers alone: the capture byte's lines, the edge test, the
position in a frame, the assembled bits, the remap, the byte order of a record. -/

namespace Sys2Proof.Machine

/-- DRDY_MASK, the sample-ready line of a capture byte (00_scope.md R9, 30_encoding.md R70). -/
def drdyMask : Byte := 0x80

/-- CLK_MASK, the serial clock line of a capture byte (00_scope.md R9, 30_encoding.md R70). -/
def clkMask : Byte := 0x40

/-- LINE_MASK, 30_encoding.md R71. -/
def lineMask (k : Fin 6) : Byte :=
  if k = 0 then 0x10 else if k = 1 then 0x20 else if k = 2 then 0x02
  else if k = 3 then 0x04 else if k = 4 then 0x08 else 0x01

/-- LINE_SHIFT, 30_encoding.md R71. -/
def lineShift (k : Fin 6) : Nat :=
  if k = 0 then 4 else if k = 1 then 5 else if k = 2 then 1
  else if k = 3 then 2 else if k = 4 then 3 else 0

/-- EDGE(prev, cur, mask), 40_edge_scanner.md R100. -/
def edge (prev cur mask : Byte) : Bool :=
  prev &&& mask == mask && cur &&& mask == 0

/-- DRDY_FALL(prev, cur), 40_edge_scanner.md R101. -/
def isDrdyFall (prev cur : Byte) : Bool := edge prev cur drdyMask

/-- CLK_EDGE(prev, cur), 40_edge_scanner.md R102: the CLK bit 1 in `prev` and 0 in `cur` (DEDUCED by 90_conflicts.md C1
from the formula, against the word "rising"; log entry 13). -/
def isClkEdge (prev cur : Byte) : Bool := edge prev cur clkMask

/-- `bit(cur, k)` of 30_encoding.md R71: the state of line `k` in a capture byte, 0 or 1. A line number past 5 has no
row in the table: its bit is a free value (log entry 8). -/
def lineBit (cur : Byte) (k : Nat) : Byte :=
  if h : k < 6 then (cur &&& lineMask ⟨k, h⟩) >>> lineShift ⟨k, h⟩
  else (BitVec.ofBool (Config.unwiredLine k cur)).setWidth 8

/-- The sign condition of line `k`, 30_encoding.md R77; for a line number past 5 the same free bit (log entry 8). -/
def signSet (cur : Byte) (k : Nat) : Bool :=
  if h : k < 6 then cur &&& lineMask ⟨k, h⟩ == lineMask ⟨k, h⟩
  else Config.unwiredLine k cur

/-- SIGN_FILL, the word pre-loaded on a set sign bit (00_scope.md R9, 41_word_assembler.md R113). -/
def signFill : Word := 0xFF000000

/-- `contrib(cur, k, c)`, 30_encoding.md R76: the bit of line `k` at data bit index `c`. -/
def contrib (cur : Byte) (k c : Nat) : Word := (lineBit cur k).setWidth 32 <<< c

/-- One lane of SIGN (41_word_assembler.md R113) and the whole of TSIGN (45_threshold_prescanner.md R158): the sign
pre-load, then data bit 23, both from the byte after the edge (92_eei_decisions.md D3, D4). -/
def signLane (cur : Byte) (k : Nat) (x : Word) : Word :=
  (if signSet cur k then signFill else x) ||| contrib cur k 23

/-- One lane of DATA, 41_word_assembler.md R114: data bit `c` of line `k` is OR-ed in. -/
def dataLane (cur : Byte) (c k : Nat) (x : Word) : Word := x ||| contrib cur k c

/-- The group of edge `n` of a frame, `n div 32` (30_encoding.md R73). -/
def slotGroup (n : BitVec 7) : Nat := n.toNat / 32

/-- The position of edge `n` in its group, `n mod 32` (30_encoding.md R73). -/
def slotPos (n : BitVec 7) : Nat := n.toNat % 32

/-- The data bit index of edge `n`, `31 - p` (30_encoding.md R73). -/
def dataIndex (n : BitVec 7) : Nat := 31 - slotPos n

/-- The target's group, `tch mod 4` (45_threshold_prescanner.md R156). -/
def targetGroup (tch : BitVec 5) : Nat := tch.toNat % 4

/-- The target's line, `tch div 4` (45_threshold_prescanner.md R156); 6 or 7 for a `tch` of 24 or more. -/
def targetLine (tch : BitVec 5) : Nat := tch.toNat / 4

/-- `clockSkip = group*32 + 8` (45_threshold_prescanner.md R156). -/
def clockSkip (tch : BitVec 5) : Nat := targetGroup tch * 32 + 8

/-- The word TDATA ORs into `acc` at edge `n`, 45_threshold_prescanner.md R159, with data bit index
`23 - (n - clockSkip)`. Past `clockSkip + 23` the index is negative: a free value (log entry 9). -/
def targetContrib (tch : BitVec 5) (n : BitVec 7) (cur : Byte) : Word :=
  if n.toNat ≤ clockSkip tch + 23 then contrib cur (targetLine tch) (clockSkip tch + 23 - n.toNat)
  else Config.contribPastWord tch n cur

/-- REMAP(i), 42_sample_emitter.md R125. -/
def remapSlot (i : Fin 24) : Fin 24 := ⟨i.val * 6 % 24 + i.val / 4, by omega⟩

/-- `sext_24_32(v)`, 00_scope.md R13. -/
def sext24 (v : BitVec 24) : Word :=
  if v.getLsbD 23 then 0xFF000000 ||| v.setWidth 32 else v.setWidth 32

/-- `LE32(x)`, 00_scope.md R14 and 20_memory.md R53: four bytes, least significant first. -/
def le32 (x : Word) : List Byte :=
  [x.extractLsb' 0 8, x.extractLsb' 8 8, x.extractLsb' 16 8, x.extractLsb' 24 8]

/-- `count(en)`, 00_scope.md R14. -/
def countEn (en : BitVec 24) : Nat := (List.finRange 24).countP fun (i : Fin 24) => en.getLsbD i

/-- The record of a frame, 42_sample_emitter.md R127 and 30_encoding.md R78: the enabled channels in ascending order,
each the little-endian word of its slot. -/
def record (en : BitVec 24) (w : Vector Word 24) : List Byte :=
  (List.finRange 24).flatMap fun (i : Fin 24) => if en.getLsbD i then le32 w[remapSlot i] else []

/-- NEXT_EDGE(buf, size, start, mask) from a cursor on, 40_edge_scanner.md R105: `at` is the index of the buffer's
first byte. -/
def nextEdgeFrom (mask : Byte) : Nat → List Byte → Option Nat
  | i, a :: b :: rest => if edge a b mask then some i else nextEdgeFrom mask (i + 1) (b :: rest)
  | _, [_] => none
  | _, [] => none

/-- NEXT_EDGE(buf, size, start, mask), 40_edge_scanner.md R105: the least index from `start` on whose pair is an edge of
the masked line, or none. -/
def nextEdge (buf : List Byte) (start : Nat) (mask : Byte) : Option Nat :=
  nextEdgeFrom mask start (buf.drop start)

end Sys2Proof.Machine
end

