-- ==== Sys2Proof/Syntax.lean ====
section
/-! DEFINITION. The instructions: one constructor per row of spec/opcode_table.json, and the words they are decoded
from (30_encoding.md R70 to R79). -/

namespace Sys2Proof

/-- One sample of the input ports (30_encoding.md R81): what the host presents in one step. -/
structure HostPorts where
  /-- `rst`, the reset request. -/
  rst : Bool
  /-- `cmd[2:0]`, the operation code of R79. -/
  cmd : BitVec 3
  /-- `din[7:0]`, the capture byte of PUSH. -/
  din : Byte
  /-- `cfg_mode[1:0]` of START. -/
  cfgMode : BitVec 2
  /-- `cfg_en[23:0]` of START: bit `i` is logical channel `i`. -/
  cfgEn : BitVec 24
  /-- `cfg_tch[4:0]` of START. -/
  cfgTch : BitVec 5
  /-- `cfg_thr[31:0]` of START, two's complement. -/
  cfgThr : BitVec 32
  /-- `cfg_budget[31:0]` of START, unsigned. -/
  cfgBudget : BitVec 32
  deriving DecidableEq, Repr

/-- The instructions. Operands that a rule lists beside an encoding (the capture byte `cur`, the latched `tch`, the
ports of START and PUSH) are arguments of the constructor. -/
inductive Instr where
  /-- RESET, 46_session_control.md R171. -/
  | reset
  /-- NOP, R172. -/
  | nop
  /-- START, R173: `cfg_mode`, `cfg_en`, `cfg_tch`, `cfg_thr`, `cfg_budget`. -/
  | start (cfgMode : BitVec 2) (cfgEn : BitVec 24) (cfgTch : BitVec 5) (cfgThr cfgBudget : BitVec 32)
  /-- PUSH, R175: `din`. -/
  | push (din : Byte)
  /-- END, R176. -/
  | endInput
  /-- ABORT, R177. -/
  | abort
  /-- The reserved command code 5, R179. -/
  | reserved5
  /-- The reserved command code 6, R179. -/
  | reserved6
  /-- The reserved command code 7, R179. -/
  | reserved7
  /-- DRDY_FALL, 40_edge_scanner.md R101, effect 41_word_assembler.md R111: the pair. -/
  | drdyFall (prev cur : Byte)
  /-- CLK_EDGE, 40_edge_scanner.md R102, effect 41_word_assembler.md R115 or 45_threshold_prescanner.md R161: the pair. -/
  | clkEdge (prev cur : Byte)
  /-- NO_EDGE, 40_edge_scanner.md R103: the pair. -/
  | noEdge (prev cur : Byte)
  /-- HDR, 41_word_assembler.md R112: edge number, capture byte. -/
  | hdr (n : BitVec 7) (cur : Byte)
  /-- SIGN, 41_word_assembler.md R113: edge number, capture byte. -/
  | sign (n : BitVec 7) (cur : Byte)
  /-- DATA_LO, the DATA of 41_word_assembler.md R114 at positions 9..15: edge number, capture byte. -/
  | dataLo (n : BitVec 7) (cur : Byte)
  /-- DATA_HI, the DATA of 41_word_assembler.md R114 at positions 16..31: edge number, capture byte. -/
  | dataHi (n : BitVec 7) (cur : Byte)
  /-- TSKIP, 45_threshold_prescanner.md R157: target channel, edge number, capture byte. -/
  | tskip (tch : BitVec 5) (n : BitVec 7) (cur : Byte)
  /-- TSIGN, 45_threshold_prescanner.md R158, whose edge number is `clockSkip`: target channel, capture byte. -/
  | tsign (tch : BitVec 5) (cur : Byte)
  /-- TDATA, 45_threshold_prescanner.md R159: target channel, edge number, capture byte. -/
  | tdata (tch : BitVec 5) (n : BitVec 7) (cur : Byte)
  /-- TCMP, 45_threshold_prescanner.md R160, whose edge number is `clockSkip + 23`: target channel. -/
  | tcmp (tch : BitVec 5)
  /-- REMAP, 42_sample_emitter.md R125: the logical channel, 0..23. -/
  | remap (i : Fin 24)
  /-- EMIT, 42_sample_emitter.md R127, whose edge number is 127. -/
  | emit
  deriving DecidableEq, Repr

/-- The words the decoder reads, one constructor per format of spec/opcode_table.json. SLOT and TSLOT have a second
constructor each, for the operation a frame's last edge performs in addition to its data bit (EMIT, TCMP). -/
inductive Code where
  /-- Format OP (30_encoding.md R79): the input ports. -/
  | op (p : HostPorts)
  /-- Format PAIR (R72): whether a frame is open (`cc` is not -1, so that the CLK pattern is the one looked for,
  40_edge_scanner.md R104), and the word with `prev` in bits 15..8 and `cur` in bits 7..0. -/
  | pair (frameOpen : Bool) (p : BitVec 16)
  /-- Format SLOT (R73), the bit operation of edge `n`, with the byte after the edge. -/
  | slot (n : BitVec 7) (cur : Byte)
  /-- Format SLOT, what edge `n` performs after its bit operation. -/
  | slotDone (n : BitVec 7)
  /-- Format TSLOT (R75), the bit operation of edge `n` for the target channel, with the byte after the edge. -/
  | tslot (tch : BitVec 5) (n : BitVec 7) (cur : Byte)
  /-- Format TSLOT, what edge `n` performs after its bit operation. -/
  | tslotDone (tch : BitVec 5) (n : BitVec 7)
  /-- Format FN: the 5-bit argument of REMAP. -/
  | fn (i : BitVec 5)
  deriving DecidableEq, Repr

/-- Why the decoder refuses a word. -/
inductive DecodeError where
  /-- Only edge 127 performs anything after its bit operation in BATCH and STREAM modes (R115). -/
  | noCompletionAtEdge (n : BitVec 7)
  /-- A target channel of 24..31 names no line and no group (10_state.md R32). -/
  | targetOutOfRange (tch : BitVec 5)
  /-- An edge past `clockSkip + 23` is not consumed by the threshold scanner (R75). -/
  | edgeNotConsumed (tch : BitVec 5) (n : BitVec 7)
  /-- The argument of REMAP is a logical channel, 0..23 (R125). -/
  | channelOutOfRange (i : BitVec 5)
  deriving DecidableEq, Repr

end Sys2Proof
end

