-- ==== Sys2Proof/WellFormed.lean ====
section
/-! DEFINITION. When an instruction's operands are ones its encoding admits (30_encoding.md R72 to R75). -/

namespace Sys2Proof

open Sys2Proof.Machine

/-- The operands are ones the instruction's row admits. The host operations admit every value of their ports (a START
that fails VALID is a defined input, 93_implementation_defined.md U13). -/
def Instr.wellFormed (i : Instr) : Bool :=
  match i with
  | .reset => true
  | .nop => true
  | .start _ _ _ _ _ => true
  | .push _ => true
  | .endInput => true
  | .abort => true
  | .reserved5 => true
  | .reserved6 => true
  | .reserved7 => true
  | .drdyFall p c => isDrdyFall p c
  | .clkEdge p c => isClkEdge p c
  | .noEdge p c => !(isDrdyFall p c && isClkEdge p c)
  | .hdr n _ => slotPos n < 8
  | .sign n _ => slotPos n = 8
  | .dataLo n _ => 9 ≤ slotPos n && slotPos n < 16
  | .dataHi n _ => 16 ≤ slotPos n
  | .tskip t n _ => t.toNat < 24 && n.toNat < clockSkip t
  | .tsign t _ => t.toNat < 24
  | .tdata t n _ => t.toNat < 24 && clockSkip t < n.toNat && n.toNat ≤ clockSkip t + 23
  | .tcmp t => t.toNat < 24
  | .remap _ => true
  | .emit => true

/-- `wellFormed` as a proposition. -/
abbrev WellFormed (i : Instr) : Prop := i.wellFormed = true

end Sys2Proof
end

