-- ==== Sys2Proof/Decode.lean ====
section
/-! DEFINITION. The decoder, one function per format of 30_encoding.md, and after it the encoder. -/

namespace Sys2Proof

open Sys2Proof.Machine

/-- The idle ports: nothing is requested, `cmd` is NOP (30_encoding.md R79). -/
def HostPorts.idle : HostPorts :=
  { rst := false, cmd := 0, din := 0, cfgMode := 0, cfgEn := 0, cfgTch := 0, cfgThr := 0, cfgBudget := 0 }

/-- The OP word of the ports: `rst` above `cmd` (the note on RESET in opcode_table.json). -/
def HostPorts.opWord (p : HostPorts) : BitVec 4 := BitVec.ofBool p.rst ++ p.cmd

/-- Format OP, 30_encoding.md R79: `rst` takes precedence over every `cmd` (60_exceptions.md R197). -/
def decodeOp (p : HostPorts) : Instr :=
  if p.opWord &&& 0x8 = 0x8 then .reset
  else if p.cmd = 0 then .nop
  else if p.cmd = 1 then .start p.cfgMode p.cfgEn p.cfgTch p.cfgThr p.cfgBudget
  else if p.cmd = 2 then .push p.din
  else if p.cmd = 3 then .endInput
  else if p.cmd = 4 then .abort
  else if p.cmd = 5 then .reserved5
  else if p.cmd = 6 then .reserved6
  else .reserved7

/-- Format PAIR, 30_encoding.md R72 with the gating of 40_edge_scanner.md R104: with no frame open only DRDY_FALL is
looked for, with one open only CLK_EDGE. -/
def decodePair (frameOpen : Bool) (p : BitVec 16) : Instr :=
  let prev := p.extractLsb' 8 8
  let cur := p.extractLsb' 0 8
  match frameOpen with
  | false => if p &&& 0x8080 = 0x8000 then .drdyFall prev cur else .noEdge prev cur
  | true => if p &&& 0x4040 = 0x4000 then .clkEdge prev cur else .noEdge prev cur

/-- Format SLOT, the bit operation of edge `n`, in the mask-and-match form of 30_encoding.md R73; SIGN is tested before
DATA_LO, whose pattern contains it. -/
def decodeSlot (n : BitVec 7) (cur : Byte) : Instr :=
  if n &&& 0x18 = 0x00 then .hdr n cur
  else if n &&& 0x1F = 0x08 then .sign n cur
  else if n &&& 0x18 = 0x08 then .dataLo n cur
  else .dataHi n cur

/-- Format SLOT, what edge `n` performs after its bit operation (41_word_assembler.md R115). -/
def decodeSlotDone (n : BitVec 7) : Except DecodeError Instr :=
  if n &&& 0x7F = 0x7F then .ok .emit else .error (.noCompletionAtEdge n)

/-- Format TSLOT, the bit operation of edge `n` for the target channel (30_encoding.md R75). -/
def decodeTslot (t : BitVec 5) (n : BitVec 7) (cur : Byte) : Except DecodeError Instr :=
  if 24 ≤ t.toNat then .error (.targetOutOfRange t)
  else if n.toNat < clockSkip t then .ok (.tskip t n cur)
  else if n.toNat = clockSkip t then .ok (.tsign t cur)
  else if n.toNat ≤ clockSkip t + 23 then .ok (.tdata t n cur)
  else .error (.edgeNotConsumed t n)

/-- Format TSLOT, what edge `n` performs after its bit operation (30_encoding.md R75). -/
def decodeTslotDone (t : BitVec 5) (n : BitVec 7) : Except DecodeError Instr :=
  if 24 ≤ t.toNat then .error (.targetOutOfRange t)
  else if n.toNat = clockSkip t + 23 then .ok (.tcmp t)
  else .error (.edgeNotConsumed t n)

/-- Format FN: a logical channel (42_sample_emitter.md R125). -/
def decodeFn (i : BitVec 5) : Except DecodeError Instr :=
  if h : i.toNat < 24 then .ok (.remap ⟨i.toNat, h⟩) else .error (.channelOutOfRange i)

/-- The decoder, total over every word of every format. -/
def decode (c : Code) : Except DecodeError Instr :=
  match c with
  | .op p => .ok (decodeOp p)
  | .pair o p => .ok (decodePair o p)
  | .slot n cur => .ok (decodeSlot n cur)
  | .slotDone n => decodeSlotDone n
  | .tslot t n cur => decodeTslot t n cur
  | .tslotDone t n => decodeTslotDone t n
  | .fn i => decodeFn i

/-- Ports that present a command code, the operand ports idle. -/
def HostPorts.command (cmd : BitVec 3) : HostPorts := { HostPorts.idle with cmd := cmd }

/-- The encoder: the word of an instruction, from the tables of 30_encoding.md. -/
def encode (i : Instr) : Code :=
  match i with
  | .reset => .op { HostPorts.idle with rst := true }
  | .nop => .op (HostPorts.command 0)
  | .start m e t thr budget =>
      .op { HostPorts.command 1 with cfgMode := m, cfgEn := e, cfgTch := t, cfgThr := thr, cfgBudget := budget }
  | .push din => .op { HostPorts.command 2 with din := din }
  | .endInput => .op (HostPorts.command 3)
  | .abort => .op (HostPorts.command 4)
  | .reserved5 => .op (HostPorts.command 5)
  | .reserved6 => .op (HostPorts.command 6)
  | .reserved7 => .op (HostPorts.command 7)
  | .drdyFall p c => .pair false (p ++ c)
  | .clkEdge p c => .pair true (p ++ c)
  | .noEdge p c => .pair (isDrdyFall p c) (p ++ c)
  | .hdr n cur => .slot n cur
  | .sign n cur => .slot n cur
  | .dataLo n cur => .slot n cur
  | .dataHi n cur => .slot n cur
  | .tskip t n cur => .tslot t n cur
  | .tsign t cur => .tslot t (BitVec.ofNat 7 (clockSkip t)) cur
  | .tdata t n cur => .tslot t n cur
  | .tcmp t => .tslotDone t (BitVec.ofNat 7 (clockSkip t + 23))
  | .remap i => .fn (BitVec.ofNat 5 i)
  | .emit => .slotDone 0x7F

/-- The SLOT word `n` as a row of opcode_table.json: EMIT's row is the one that matches 127 most closely. -/
def decodeSlotWord (n : BitVec 7) : Instr :=
  if n = 0x7F then .emit else decodeSlot n 0

/-- The format a word of `nbits` bits of opcode_table.json has. Four, five, seven and sixteen bits are the formats' own
widths (OP, FN, SLOT, PAIR). A row's width rounded up to a byte leaves OP, FN and SLOT with eight bits each: a value below
16 is taken as an OP word, a value of 16 to 127 as a SLOT word, anything above is refused (log entry 3). -/
def decodeTableWord (nbits w : Nat) : Option Instr :=
  if nbits = 16 then
    if w % 2 ^ 16 &&& 0x8080 = 0x8000 then some (decodePair false (BitVec.ofNat 16 w))
    else some (decodePair true (BitVec.ofNat 16 w))
  else if nbits = 7 then some (decodeSlotWord (BitVec.ofNat 7 w))
  else if nbits = 5 then (decodeFn (BitVec.ofNat 5 w)).toOption
  else if nbits = 4 || (nbits = 8 && w < 16) then
    some (decodeOp { HostPorts.idle with rst := w.testBit 3, cmd := BitVec.ofNat 3 w })
  else if nbits = 8 && w < 128 then some (decodeSlotWord (BitVec.ofNat 7 w))
  else none

end Sys2Proof
end

