-- ==== Sys2Proof/Machine/State.lean ====
section
/-! DEFINITION. The state of the block (10_state.md), the reasons a step can stop, and the state after reset. -/

namespace Sys2Proof.Machine

/-- The operating mode latched by START (10_state.md R30). Code 3 is never latched and is not representable
(93_implementation_defined.md U14, log entry 4). -/
inductive Mode where
  /-- 0: one-shot decode of a finite buffer. -/
  | batch
  /-- 1: decode of an open-ended run of chunks. -/
  | stream
  /-- 2: single-channel threshold pre-scan. -/
  | thresh
  deriving DecidableEq, Repr

/-- The session status `sess` (10_state.md R29). -/
inductive Sess where
  /-- 0: no session. -/
  | none
  /-- 1: a session is running. -/
  | active
  /-- 2: the session is over. -/
  | done
  /-- 3: the transport failed. -/
  | failed
  deriving DecidableEq, Repr

/-- The threshold result (10_state.md R29). Code 3 is never produced and is not representable (U14, log entry 4). -/
inductive Result where
  /-- 0: no result yet. -/
  | none
  /-- 1: a decoded value reached the threshold. -/
  | triggered
  /-- 2: the input or the budget ended first. -/
  | notTriggered
  deriving DecidableEq, Repr

/-- The error latch `err` (10_state.md R29, 60_exceptions.md R191). Code 1, insufficient data, is never latched and is
not representable (U14, log entry 4). -/
inductive Err where
  /-- 0: no error. -/
  | none
  /-- 2: the underlying chunk read failed. -/
  | transportFailure
  /-- 3: START was given a configuration that VALID rejects. -/
  | malformedConfiguration
  deriving DecidableEq, Repr

/-- The state of the block, and after it the model's own fields `host` and `ret`. -/
structure State where
  /-- The decoded-word registers, by slot (10_state.md R20, R21). -/
  w : Vector Word 24
  /-- The clock counter: `none` is -1, between frames; `some n` is `n` CLK edges consumed (10_state.md R24, R25). -/
  cc : Option (BitVec 7)
  /-- The last capture byte pushed in this session (10_state.md R26). -/
  prev : Byte
  /-- Whether a byte has been pushed in this session (10_state.md R26). -/
  prevValid : Bool
  /-- The threshold scanner's accumulator (10_state.md R27). -/
  acc : Word
  /-- The bytes pushed in the current THRESH session (10_state.md R28). -/
  scanned : BitVec 32
  /-- The session status (10_state.md R29). -/
  sess : Sess
  /-- The threshold result (10_state.md R29). -/
  result : Result
  /-- The last error (10_state.md R29). -/
  err : Err
  /-- The latched mode (10_state.md R30). -/
  mode : Mode
  /-- The latched Channel Enable Set (10_state.md R31). -/
  en : BitVec 24
  /-- The latched target channel (10_state.md R32). -/
  tch : BitVec 5
  /-- The latched threshold (10_state.md R33). -/
  thr : BitVec 32
  /-- The latched byte budget (10_state.md R34). -/
  budget : BitVec 32
  /-- The bytes emitted in the current session (10_state.md R36). -/
  out : List Byte
  /-- The record this step has emitted, for the ports `rec_valid`, `rec_len`, `rec_data` (00_scope.md R15,
  30_encoding.md R81; log entry 5). -/
  emitted : Option (List Byte)
  /-- The MODEL's own field: the input ports the host will present, the next step's first (log entry 1). -/
  host : List HostPorts
  /-- The MODEL's own field: the slot that the function REMAP returned in this step (log entry 6). -/
  ret : Option (Fin 24)
  deriving DecidableEq, Repr

/-- The block never faults: no rule has a trap and no capture byte raises anything (60_exceptions.md R191,
43_batch_decoder.md R140). The type has no constructor, so that no step can answer with a fault. Safe. -/
inductive Fault where
  deriving DecidableEq, Repr

/-- Why a step is refused. -/
inductive Refusal where
  /-- Raised by an arm of `exec` whose instruction has no meaning yet; no arm is one. Safe. -/
  | notModelled (mnemonic : String)
  /-- Raised by the reserved command codes 5, 6 and 7, to which the spec gives no meaning and which it tells a model to
  refuse (46_session_control.md R179, 93_implementation_defined.md U1). Safe. -/
  | reservedCommand (cmd : BitVec 3)
  deriving DecidableEq, Repr

/-- The machine after RESET at power-on, 10_state.md R38: `out` is empty at power-on. The last three values are the
model's (DESIGN CHOICE, log entries 1, 5 and 6). -/
def State.reset : State :=
  { w := Vector.replicate 24 0
    cc := none
    prev := 0x00
    prevValid := false
    acc := 0
    scanned := 0
    sess := .none
    result := .none
    err := .none
    mode := .batch
    en := 0
    tch := 0
    thr := 0
    budget := 0
    out := []
    emitted := none
    host := []
    ret := none }

end Sys2Proof.Machine
end

