-- ==== Sys2Proof/Machine/Flags.lean ====
section
/-! DEFINITION. The status of the block: the codes of its fields, its output ports, the phase, and the conditions that
change `sess` and `result` (10_state.md R29, 30_encoding.md R80, R81, 45_threshold_prescanner.md R162). -/

namespace Sys2Proof.Machine

/-- The code of `mode`, 30_encoding.md R80. -/
def Mode.code (m : Mode) : BitVec 2 :=
  match m with
  | .batch => 0
  | .stream => 1
  | .thresh => 2

/-- The mode of a `cfg_mode`, none for the reserved code 3 (30_encoding.md R80). -/
def Mode.ofCode (m : BitVec 2) : Option Mode :=
  if m = 0 then some .batch else if m = 1 then some .stream else if m = 2 then some .thresh else none

/-- The code of `sess`, 30_encoding.md R80. -/
def Sess.code (x : Sess) : BitVec 2 :=
  match x with
  | .none => 0
  | .active => 1
  | .done => 2
  | .failed => 3

/-- The code of `result`, 30_encoding.md R80. -/
def Result.code (x : Result) : BitVec 2 :=
  match x with
  | .none => 0
  | .triggered => 1
  | .notTriggered => 2

/-- The code of `err`, 30_encoding.md R80, the numbers of 60_exceptions.md R191. -/
def Err.code (x : Err) : BitVec 2 :=
  match x with
  | .none => 0
  | .transportFailure => 2
  | .malformedConfiguration => 3

/-- `cc` as the signed 8-bit register of 10_state.md R24: 0xFF is -1. -/
def State.ccReg (s : State) : BitVec 8 :=
  match s.cc with
  | none => 0xFF
  | some n => n.setWidth 8

/-- `frame_open`, 10_state.md R29. -/
def State.frameOpen (s : State) : Bool := s.cc.isSome

/-- The number of frames emitted in BATCH and STREAM modes, 10_state.md R37; none where the rule gives no number: in
THRESH mode, and with no channel enabled, where its formula divides by 0 (DESIGN CHOICE, log entry 18). -/
def State.frames (s : State) : Option Nat :=
  if s.mode = .thresh ∨ countEn s.en = 0 then none else some (s.out.length / (4 * countEn s.en))

/-- The phases of 44_streaming_decoder.md R147, with the group. -/
inductive Phase where
  /-- Between frames. -/
  | idle
  /-- The next edge is a header edge of the group. -/
  | inHeader (g : Nat)
  /-- The next edge is a sign or data edge of the group. -/
  | inSignAndData (g : Nat)
  deriving DecidableEq, Repr

/-- The phase is a function of `cc`, 10_state.md R25 and 44_streaming_decoder.md R147. -/
def State.phase (s : State) : Phase :=
  match s.cc with
  | none => .idle
  | some n => if slotPos n < 8 then .inHeader (slotGroup n) else .inSignAndData (slotGroup n)

/-- One sample of the output ports, 30_encoding.md R81. -/
structure OutPorts where
  /-- `sess[1:0]`. -/
  sess : BitVec 2
  /-- `result[1:0]`. -/
  result : BitVec 2
  /-- `err[1:0]`. -/
  err : BitVec 2
  /-- `frame_open`. -/
  frameOpen : Bool
  /-- `acc[31:0]`. -/
  acc : BitVec 32
  /-- `rec_valid`. -/
  recValid : Bool
  /-- `rec_len[6:0]`. -/
  recLen : BitVec 7
  /-- `rec_data[767:0]`: byte `b` of the record in bits `8b+7 : 8b`. -/
  recData : BitVec 768
  deriving DecidableEq, Repr

/-- The bytes of a record as `rec_data`, 30_encoding.md R81; bytes past the record are 0. -/
def packRecord (bytes : List Byte) : BitVec 768 :=
  bytes.foldr (fun b acc => acc <<< 8 ||| b.setWidth 768) 0

/-- The output ports, 30_encoding.md R81. -/
def State.outPorts (s : State) : OutPorts :=
  { sess := s.sess.code
    result := s.result.code
    err := s.err.code
    frameOpen := s.frameOpen
    acc := s.acc
    recValid := s.emitted.isSome
    recLen := BitVec.ofNat 7 (s.emitted.getD []).length
    recData := packRecord (s.emitted.getD []) }

/-- VALID(m, e, t), 46_session_control.md R174. -/
def valid (m : BitVec 2) (e : BitVec 24) (t : BitVec 5) : Bool :=
  (m = 0 && e ≠ 0) || (m = 1 && e ≠ 0) || (m = 2 && t.toNat ≤ 23)

/-- The mode START latches: the mode of a configuration that VALID accepts, none for one it rejects
(46_session_control.md R173, R174). -/
def acceptedMode (m : BitVec 2) (e : BitVec 24) (t : BitVec 5) : Option Mode :=
  if valid m e t then Mode.ofCode m else none

/-- The comparison of TCMP, signed greater-or-equal (45_threshold_prescanner.md R160). -/
def State.reaches (s : State) : Bool := s.thr.toInt ≤ s.acc.toInt

/-- The counter `scanned` after one more byte, 45_threshold_prescanner.md R161; past 2^32-1 a free value (log
entry 11). -/
def State.scannedNext (s : State) : BitVec 32 :=
  if s.scanned = BitVec.allOnes 32 then Config.scannedPastMax s.budget else s.scanned + 1

/-- The counter after edge `n` of a THRESH frame that does not complete the word, 45_threshold_prescanner.md R161;
past 127 a free value (log entry 10). -/
def targetCount (tch : BitVec 5) (n : BitVec 7) (cur : Byte) : Option (BitVec 7) :=
  if n = 127 then Config.countPast127 tch cur else some (n + 1)

/-- What SCAN finds at one pushed byte, 40_edge_scanner.md R104. -/
inductive ScanEvent where
  /-- The first byte of the session: no pair. -/
  | first
  /-- The pair starts a frame. -/
  | drdyFall
  /-- The pair is edge `n` of the open frame. -/
  | clkEdge (n : BitVec 7)
  /-- The event being looked for is not there. -/
  | noEdge
  deriving DecidableEq, Repr

/-- SCAN of a pair, 40_edge_scanner.md R104: `cc` decides which event is looked for. -/
def scanPair (prevValid : Bool) (cc : Option (BitVec 7)) (prev cur : Byte) : ScanEvent :=
  match prevValid with
  | false => .first
  | true =>
    match cc with
    | none => if isDrdyFall prev cur then .drdyFall else .noEdge
    | some n => if isClkEdge prev cur then .clkEdge n else .noEdge

/-- SCAN(state, cur), 40_edge_scanner.md R104. -/
def State.scan (s : State) (cur : Byte) : ScanEvent := scanPair s.prevValid s.cc s.prev cur

end Sys2Proof.Machine
end

