-- ==== Sys2Proof/Machine/Ops.lean ====
section
/-! DEFINITION. The named operations over the state that the meanings share. -/

namespace Sys2Proof.Machine

/-- Read decoded-word register `i` (00_scope.md R14). -/
def State.readW (s : State) (i : Fin 24) : Word := s.w[i]

/-- Rewrite the six words of group `g`, lane `k` by `f k` (41_word_assembler.md R116: the six lanes read and write
nothing in common, so they are written at once; DEDUCED, log entry 14). -/
def State.updateGroup (s : State) (g : Nat) (f : Nat → Word → Word) : State :=
  { s with w := s.w.mapIdx fun i x => if i / 6 = g then f (i % 6) x else x }

/-- Clear all 24 words and the counter: frame completion, 41_word_assembler.md R115. -/
def State.endFrame (s : State) : State :=
  { s with w := Vector.replicate 24 0, cc := none }

/-- FRAME_START, 41_word_assembler.md R111. -/
def State.frameStart (s : State) : State := { s with cc := some 0 }

/-- Count one CLK edge of the open frame, 41_word_assembler.md R115. -/
def State.countEdge (s : State) (n : BitVec 7) : State := { s with cc := some (n + 1) }

/-- `prev <- cur; prevValid <- 1`, 40_edge_scanner.md R104. -/
def State.shiftIn (s : State) (cur : Byte) : State := { s with prev := cur, prevValid := true }

/-- Clear the words, the counter and the previous byte: what START, END and ABORT have in common
(46_session_control.md R173, R176, R177). -/
def State.clearDecoder (s : State) : State :=
  { s with w := Vector.replicate 24 0, cc := none, prev := 0x00, prevValid := false }

/-- `raise E`, 60_exceptions.md R190: the code goes into `err` and the rule carries on. Nothing else is saved, there is no
vector and no handler, and no operation returns from it (R198, R200). -/
def State.raise (s : State) (e : Err) : State := { s with err := e }

/-- EMIT, 42_sample_emitter.md R127: the record of the enabled channels is appended to `out` and stands on the record
ports in this step. -/
def State.emitRecord (s : State) : State :=
  { s with out := s.out ++ record s.en s.w, emitted := some (record s.en s.w) }

/-- SIGN on the group of edge `n`, 41_word_assembler.md R113. -/
def State.signEdge (s : State) (n : BitVec 7) (cur : Byte) : State :=
  s.updateGroup (slotGroup n) (signLane cur)

/-- DATA on the group of edge `n`, 41_word_assembler.md R114. -/
def State.dataEdge (s : State) (n : BitVec 7) (cur : Byte) : State :=
  s.updateGroup (slotGroup n) (dataLane cur (dataIndex n))

/-- The bit operation of edge `n`: HDR, SIGN or DATA by its position (41_word_assembler.md R115). -/
def State.bitEdge (s : State) (n : BitVec 7) (cur : Byte) : State :=
  if slotPos n < 8 then s else if slotPos n = 8 then s.signEdge n cur else s.dataEdge n cur

/-- CLK_STEP, 41_word_assembler.md R115. -/
def State.clkStep (s : State) (n : BitVec 7) (cur : Byte) : State :=
  if n = 127 then (s.bitEdge n cur).emitRecord.endFrame else (s.bitEdge n cur).countEdge n

/-- FSTEP, 43_batch_decoder.md R137. -/
def State.fstep (s : State) (cur : Byte) : State :=
  match s.scan cur with
  | .first => s.shiftIn cur
  | .drdyFall => s.frameStart.shiftIn cur
  | .clkEdge n => (s.clkStep n cur).shiftIn cur
  | .noEdge => s.shiftIn cur

/-- TSIGN for a target channel, 45_threshold_prescanner.md R158. -/
def State.targetSign (s : State) (t : BitVec 5) (cur : Byte) : State :=
  { s with acc := signLane cur (targetLine t) s.acc }

/-- TDATA for a target channel at edge `n`, 45_threshold_prescanner.md R159. -/
def State.targetData (s : State) (t : BitVec 5) (n : BitVec 7) (cur : Byte) : State :=
  { s with acc := s.acc ||| targetContrib t n cur }

/-- TCMP, 45_threshold_prescanner.md R160. -/
def State.targetCompare (s : State) : State :=
  if s.reaches then { s with result := .triggered, sess := .done, cc := none }
  else { s with acc := 0, cc := none }

/-- The bit operation of edge `n` of a THRESH frame: TSKIP, TSIGN or TDATA (45_threshold_prescanner.md R161). -/
def State.targetBit (s : State) (n : BitVec 7) (cur : Byte) : State :=
  if n.toNat < clockSkip s.tch then s
  else if n.toNat = clockSkip s.tch then s.targetSign s.tch cur
  else s.targetData s.tch n cur

/-- The CLK branch of TSTEP, 45_threshold_prescanner.md R161. -/
def State.targetStep (s : State) (n : BitVec 7) (cur : Byte) : State :=
  if n.toNat = clockSkip s.tch + 23 then (s.targetBit n cur).targetCompare
  else { s.targetBit n cur with cc := targetCount s.tch n cur }

/-- The byte budget, 45_threshold_prescanner.md R161 and R162: checked after the byte has been decoded. -/
def State.checkBudget (s : State) : State :=
  if s.sess = .active ∧ s.scanned = s.budget then { s with result := .notTriggered, sess := .done } else s

/-- TSTEP up to its budget check: the byte is counted and decoded (45_threshold_prescanner.md R161). -/
def State.targetByte (s : State) (cur : Byte) : State :=
  match s.scan cur with
  | .first => { s with scanned := s.scannedNext }.shiftIn cur
  | .drdyFall => { s with scanned := s.scannedNext }.frameStart.shiftIn cur
  | .clkEdge n => ({ s with scanned := s.scannedNext }.targetStep n cur).shiftIn cur
  | .noEdge => { s with scanned := s.scannedNext }.shiftIn cur

/-- TSTEP, 45_threshold_prescanner.md R161. -/
def State.tstep (s : State) (cur : Byte) : State := (s.targetByte cur).checkBudget

/-- Step 1 of START, 46_session_control.md R173: decoder and status are cleared and `out` is a new sink, in every case. -/
def State.clearSession (s : State) : State :=
  { s.clearDecoder with acc := 0, scanned := 0, result := .none, err := .none, sess := .none, out := [] }

/-- Write the five latches (10_state.md R35) and make the session ACTIVE (46_session_control.md R173). -/
def State.openSession (s : State) (m : Mode) (e : BitVec 24) (t : BitVec 5) (thr budget : BitVec 32) : State :=
  { s with mode := m, en := e, tch := t, thr := thr, budget := budget, sess := .active }

/-- A THRESH session with budget 0 is over at once (46_session_control.md R173, 45_threshold_prescanner.md R162). -/
def State.checkZeroBudget (s : State) : State :=
  if s.mode = .thresh ∧ s.budget = 0 then { s with result := .notTriggered, sess := .done } else s

/-- The ports presented in this step: the first of the queue, the idle ports when the host has nothing to offer
(46_session_control.md R172; log entry 1). -/
def State.ports (s : State) : HostPorts :=
  match s.host with
  | [] => HostPorts.idle
  | p :: _ => p

/-- The instruction presented in this step. -/
def State.fetch (s : State) : Instr := decodeOp s.ports

/-- The step takes the presented operation off the queue, and the outputs of the step before are gone (log entries 1, 5
and 6). -/
def State.beginStep (s : State) : State := { s with host := s.host.tail, emitted := none, ret := none }

/-- Ports that present PUSH of a byte. -/
def pushPorts (b : Byte) : HostPorts := { HostPorts.command 2 with din := b }

/-- The state with `p` in place of the operation presented next. -/
def State.presentPorts (s : State) (p : HostPorts) : State := { s with host := p :: s.host.tail }

/-- The state in which the next step pushes `cur` in an active session whose previous byte is `prev`. -/
def State.presentPair (s : State) (prev cur : Byte) : State :=
  { s with sess := .active, prev := prev, prevValid := true }.presentPorts (pushPorts cur)

/-- A BATCH or STREAM mode: the latched one, or BATCH. -/
def Mode.full (m : Mode) : Mode :=
  match m with
  | .batch => .batch
  | .stream => .stream
  | .thresh => .batch

/-- The state in which the next step is CLK edge `n` of a frame in BATCH or STREAM mode, with byte `cur` after the edge.
The CLK bit of `cur` is cleared, since the byte after a CLK edge has it 0. -/
def State.presentEdge (s : State) (n : BitVec 7) (cur : Byte) : State :=
  { s with mode := s.mode.full, cc := some n }.presentPair clkMask (cur &&& ~~~clkMask)

/-- The state in which the next step is CLK edge `n` of a frame in THRESH mode. -/
def State.presentTargetEdge (s : State) (t : BitVec 5) (n : BitVec 7) (cur : Byte) : State :=
  { s with mode := .thresh, tch := t, cc := some n }.presentPair clkMask (cur &&& ~~~clkMask)

/-- The state whose next step runs instruction `i`. A host operation is put on the ports. A pair event, a frame-slot
operation or a function runs only inside a PUSH (43_batch_decoder.md R137, 45_threshold_prescanner.md R161), so the
session, the previous byte and the counter are set to where that PUSH performs it (DESIGN CHOICE, log entry 2). -/
def State.present (s : State) (i : Instr) : State :=
  match i with
  | .reset => s.presentPorts { HostPorts.idle with rst := true }
  | .nop => s.presentPorts (HostPorts.command 0)
  | .start m e t thr budget =>
      s.presentPorts
        { HostPorts.command 1 with cfgMode := m, cfgEn := e, cfgTch := t, cfgThr := thr, cfgBudget := budget }
  | .push b => s.presentPorts (pushPorts b)
  | .endInput => s.presentPorts (HostPorts.command 3)
  | .abort => s.presentPorts (HostPorts.command 4)
  | .reserved5 => s.presentPorts (HostPorts.command 5)
  | .reserved6 => s.presentPorts (HostPorts.command 6)
  | .reserved7 => s.presentPorts (HostPorts.command 7)
  | .drdyFall p c => { s with cc := none }.presentPair p c
  | .clkEdge p c => { s with cc := some (s.cc.getD 0) }.presentPair p c
  | .noEdge p c => { s with cc := if isDrdyFall p c then some 0 else none }.presentPair p c
  | .hdr n cur => s.presentEdge n cur
  | .sign n cur => s.presentEdge n cur
  | .dataLo n cur => s.presentEdge n cur
  | .dataHi n cur => s.presentEdge n cur
  | .tskip t n cur => s.presentTargetEdge t n cur
  | .tsign t cur => s.presentTargetEdge t (BitVec.ofNat 7 (clockSkip t)) cur
  | .tdata t n cur => s.presentTargetEdge t n cur
  | .tcmp t => s.presentTargetEdge t (BitVec.ofNat 7 (clockSkip t + 23)) 0
  | .remap i => { s with en := BitVec.twoPow 24 i }.presentEdge 127 0
  | .emit => s.presentEdge 127 0

end Sys2Proof.Machine
end

