-- ==== Sys2Proof/Machine/Assembler.lean ====
section
/-! DEFINITION. The micro-operations of the Channel Word Assembler, 41_word_assembler.md, each without the counter
update, which is CLK_STEP's (R115). -/

namespace Sys2Proof.Machine

/-- HDR, 41_word_assembler.md R112: no register is written and the byte is not examined. -/
def execHdr (_ : BitVec 7) (_ : Byte) (s : State) : Host.Outcome State Fault Refusal := .next s

/-- SIGN, 41_word_assembler.md R113. -/
def execSign (n : BitVec 7) (cur : Byte) (s : State) : Host.Outcome State Fault Refusal := .next (s.signEdge n cur)

/-- DATA at positions 9..15, 41_word_assembler.md R114. -/
def execDataLo (n : BitVec 7) (cur : Byte) (s : State) : Host.Outcome State Fault Refusal := .next (s.dataEdge n cur)

/-- DATA at positions 16..31, 41_word_assembler.md R114. -/
def execDataHi (n : BitVec 7) (cur : Byte) (s : State) : Host.Outcome State Fault Refusal := .next (s.dataEdge n cur)

end Sys2Proof.Machine
end

