-- ==== Sys2Proof/Machine/Emitter.lean ====
section
/-! DEFINITION. The Sample Emitter, 42_sample_emitter.md. -/

namespace Sys2Proof.Machine

/-- REMAP, 42_sample_emitter.md R125: a function. It writes no register of the block; the slot it returns stands in the
model's field `ret` for this step (DESIGN CHOICE, log entry 6). -/
def execRemap (i : Fin 24) (s : State) : Host.Outcome State Fault Refusal := .next { s with ret := some (remapSlot i) }

/-- EMIT, 42_sample_emitter.md R127: the registers are read and not changed; clearing them is CLK_STEP's. -/
def execEmit (s : State) : Host.Outcome State Fault Refusal := .next s.emitRecord

end Sys2Proof.Machine
end

