-- ==== Sys2Proof/Machine/Scanner.lean ====
section
/-! DEFINITION. The pair events of the Edge Scanner, 40_edge_scanner.md: what the block does with the pair
`(prev, cur)`, once the byte `cur` has been accepted by an active session. An event takes effect where SCAN looks for it
and finds it (R104); the byte is shifted in wherever it stands (log entry 7). -/

namespace Sys2Proof.Machine

/-- DRDY_FALL, 40_edge_scanner.md R101 and R104, effect FRAME_START, 41_word_assembler.md R111. -/
def execDrdyFall (prev cur : Byte) (s : State) : Host.Outcome State Fault Refusal :=
  if scanPair s.prevValid s.cc prev cur = .drdyFall then .next (s.frameStart.shiftIn cur)
  else .next (s.shiftIn cur)

/-- CLK_EDGE, 40_edge_scanner.md R102 and R104, effect CLK_STEP, 41_word_assembler.md R115, or in THRESH mode the CLK
branch of TSTEP, 45_threshold_prescanner.md R161. -/
def execClkEdge (prev cur : Byte) (s : State) : Host.Outcome State Fault Refusal :=
  match scanPair s.prevValid s.cc prev cur with
  | .clkEdge n =>
    match s.mode with
    | .batch => .next ((s.clkStep n cur).shiftIn cur)
    | .stream => .next ((s.clkStep n cur).shiftIn cur)
    | .thresh => .next ((s.targetStep n cur).shiftIn cur)
  | .first => .next (s.shiftIn cur)
  | .drdyFall => .next (s.shiftIn cur)
  | .noEdge => .next (s.shiftIn cur)

/-- NO_EDGE, 40_edge_scanner.md R103 and R104: only the byte is shifted in. -/
def execNoEdge (_ cur : Byte) (s : State) : Host.Outcome State Fault Refusal := .next (s.shiftIn cur)

end Sys2Proof.Machine
end

