-- ==== Sys2Proof/Machine/Session.lean ====
section
/-! DEFINITION. The host operations, 46_session_control.md. -/

namespace Sys2Proof.Machine

/-- RESET, 46_session_control.md R171: every piece of state takes its reset value, `out` is not changed. The operations
the host has yet to present are the host's and stay. -/
def execReset (s : State) : Host.Outcome State Fault Refusal :=
  .next { State.reset with out := s.out, host := s.host }

/-- NOP, 46_session_control.md R172. -/
def execNop (s : State) : Host.Outcome State Fault Refusal := .next s

/-- START, 46_session_control.md R173: the old session is cleared, then the configuration is validated. -/
def execStart (m : BitVec 2) (e : BitVec 24) (t : BitVec 5) (thr budget : BitVec 32) (s : State) :
    Host.Outcome State Fault Refusal :=
  match acceptedMode m e t with
  | none => .next (s.clearSession.raise .malformedConfiguration)
  | some md => .next (s.clearSession.openSession md e t thr budget).checkZeroBudget

/-- PUSH, 46_session_control.md R175; outside an active session the byte is lost (R178). -/
def execPush (din : Byte) (s : State) : Host.Outcome State Fault Refusal :=
  if s.sess = .active then
    match s.mode with
    | .batch => .next (s.fstep din)
    | .stream => .next (s.fstep din)
    | .thresh => .next (s.tstep din)
  else .next s

/-- END, 46_session_control.md R176; no effect outside an active session (R178). -/
def execEnd (s : State) : Host.Outcome State Fault Refusal :=
  if s.sess = .active then
    if s.mode = .thresh then .next { s.clearDecoder with acc := 0, result := .notTriggered, sess := .done }
    else .next { s.clearDecoder with sess := .done }
  else .next s

/-- ABORT, 46_session_control.md R177; no effect outside an active session (R178). -/
def execAbort (s : State) : Host.Outcome State Fault Refusal :=
  if s.sess = .active then .next { { s.clearDecoder with acc := 0 }.raise .transportFailure with sess := .failed }
  else .next s

/-- The reserved command code 5: refused, 46_session_control.md R179, 93_implementation_defined.md U1. -/
def execReserved5 (_ : State) : Host.Outcome State Fault Refusal := .refused (.reservedCommand 5)

/-- The reserved command code 6: refused, 46_session_control.md R179, 93_implementation_defined.md U1. -/
def execReserved6 (_ : State) : Host.Outcome State Fault Refusal := .refused (.reservedCommand 6)

/-- The reserved command code 7: refused, 46_session_control.md R179, 93_implementation_defined.md U1. -/
def execReserved7 (_ : State) : Host.Outcome State Fault Refusal := .refused (.reservedCommand 7)

end Sys2Proof.Machine
end

