-- ==== Sys2Proof/Machine/Threshold.lean ====
section
/-! DEFINITION. The micro-operations of the Threshold Pre-Scanner, 45_threshold_prescanner.md, each without the counter
update of TSTEP (R161), but for TCMP, which closes the frame itself (R160). -/

namespace Sys2Proof.Machine

/-- TSKIP, 45_threshold_prescanner.md R157: nothing is written and the byte is not examined. -/
def execTskip (_ : BitVec 5) (_ : BitVec 7) (_ : Byte) (s : State) : Host.Outcome State Fault Refusal := .next s

/-- TSIGN, 45_threshold_prescanner.md R158. -/
def execTsign (t : BitVec 5) (cur : Byte) (s : State) : Host.Outcome State Fault Refusal := .next (s.targetSign t cur)

/-- TDATA, 45_threshold_prescanner.md R159. -/
def execTdata (t : BitVec 5) (n : BitVec 7) (cur : Byte) (s : State) : Host.Outcome State Fault Refusal :=
  .next (s.targetData t n cur)

/-- TCMP, 45_threshold_prescanner.md R160: its operands are `acc` and `thr`. -/
def execTcmp (_ : BitVec 5) (s : State) : Host.Outcome State Fault Refusal := .next s.targetCompare

end Sys2Proof.Machine
end

