-- ==== Sys2Proof/Machine/Dispatch.lean ====
section
/-! DEFINITION. One arm per constructor of Instr: the meaning of each. -/

namespace Sys2Proof.Machine

def exec (i : Instr) (s : State) : Host.Outcome State Fault Refusal :=
  match i with
  | .reset => Sys2Proof.Machine.execReset s
  | .nop => Sys2Proof.Machine.execNop s
  | .start m e t thr budget => Sys2Proof.Machine.execStart m e t thr budget s
  | .push din => Sys2Proof.Machine.execPush din s
  | .endInput => Sys2Proof.Machine.execEnd s
  | .abort => Sys2Proof.Machine.execAbort s
  | .reserved5 => Sys2Proof.Machine.execReserved5 s
  | .reserved6 => Sys2Proof.Machine.execReserved6 s
  | .reserved7 => Sys2Proof.Machine.execReserved7 s
  | .drdyFall prev cur => Sys2Proof.Machine.execDrdyFall prev cur s
  | .clkEdge prev cur => Sys2Proof.Machine.execClkEdge prev cur s
  | .noEdge prev cur => Sys2Proof.Machine.execNoEdge prev cur s
  | .hdr n cur => Sys2Proof.Machine.execHdr n cur s
  | .sign n cur => Sys2Proof.Machine.execSign n cur s
  | .dataLo n cur => Sys2Proof.Machine.execDataLo n cur s
  | .dataHi n cur => Sys2Proof.Machine.execDataHi n cur s
  | .tskip t n cur => Sys2Proof.Machine.execTskip t n cur s
  | .tsign t cur => Sys2Proof.Machine.execTsign t cur s
  | .tdata t n cur => Sys2Proof.Machine.execTdata t n cur s
  | .tcmp t => Sys2Proof.Machine.execTcmp t s
  | .remap ch => Sys2Proof.Machine.execRemap ch s
  | .emit => Sys2Proof.Machine.execEmit s

end Sys2Proof.Machine
end

