-- ==== Sys2Proof/Machine/Step.lean ====
section
/-! DEFINITION. One step: the operation the host presents (00_scope.md R15). -/

namespace Sys2Proof.Machine

/-- One host operation is one atomic step (00_scope.md R15, 46_session_control.md R170). -/
def step (s : State) : Host.Outcome State Fault Refusal := exec s.fetch s.beginStep

/-- The state whose next step runs the instruction of a word of spec/opcode_table.json; a word the decoder refuses
leaves the state as it is (log entries 2 and 3). -/
def State.withFetchWord (s : State) (nbits w : Nat) : State :=
  match decodeTableWord nbits w with
  | none => s
  | some i => s.present i

end Sys2Proof.Machine
end

