-- ==== Sys2Proof/Machine/Trace.lean ====
section
/-! DEFINITION. Runs of operations: the pseudo-operations and the canonical frame encoder of 30_encoding.md R85 and R86,
and the trace notation of R84. -/

namespace Sys2Proof.Machine

/-- The instructions in order, each on the state the one before left (20_memory.md R61), stopping at the first that gives
no next state. -/
def run : List Instr → State → Host.Outcome State Fault Refusal
  | [], s => .next s
  | i :: rest, s =>
    match exec i s with
    | .next s' => run rest s'
    | .fault r => .fault r
    | .refused r => .refused r

/-- PUSHN, 30_encoding.md R85; PUSH_CHUNK (46_session_control.md R182) and CHUNK are the same. -/
def pushN (bytes : List Byte) : List Instr := bytes.map .push

/-- CHUNK, 30_encoding.md R85: a list of chunks is the PUSHN of their bytes; where a chunk ends changes nothing
(44_streaming_decoder.md R148). -/
def pushChunks (chunks : List (List Byte)) : List Instr := chunks.flatMap pushN

/-- RUN_BATCH, 30_encoding.md R85 and 43_batch_decoder.md R136. -/
def runBatch (en : BitVec 24) (buf : List Byte) : List Instr :=
  .start 0 en 0 0 0 :: pushN buf ++ [.endInput]

/-- The bytes that FSTEP is given, one after another (43_batch_decoder.md R137). -/
def State.feed (s : State) (bytes : List Byte) : State := bytes.foldl State.fstep s

/-- The bit `b(n, k)` of the canonical encoder, 30_encoding.md R86. -/
def encodedBit (v : Fin 24 → BitVec 24) (h : BitVec 8) (n : Fin 128) (k : Fin 6) : Bool :=
  if n.val % 32 < 8 then h.getLsbD (7 - n.val % 32)
  else (v ⟨4 * k.val + n.val / 32, by omega⟩).getLsbD (31 - n.val % 32)

/-- `d(n)` of the canonical encoder, 30_encoding.md R86: the six data lines of edge `n`. -/
def encodedLines (v : Fin 24 → BitVec 24) (h : BitVec 8) (n : Fin 128) : Byte :=
  (List.finRange 6).foldl
    (fun (d : Byte) (k : Fin 6) => d ||| (BitVec.ofBool (encodedBit v h n k)).setWidth 8 <<< lineShift k) 0

/-- `ENC(v, h)`, 30_encoding.md R86: one frame of 257 bytes. -/
def encFrame (v : Fin 24 → BitVec 24) (h : BitVec 8) : List Byte :=
  drdyMask :: (List.finRange 128).flatMap fun (n : Fin 128) => [clkMask ||| encodedLines v h n, encodedLines v h n]

/-- FRAME, 30_encoding.md R85. -/
def frameOps (v : Fin 24 → BitVec 24) (h : BitVec 8) : List Instr := pushN (encFrame v h)

/-- A number in the hexadecimal of the trace notation, in the given number of digits, in upper case as R84's examples. -/
def hexDigits : Nat → Nat → String
  | 0, _ => ""
  | d + 1, x => hexDigits d (x / 16) ++ String.singleton (Nat.digitChar (x % 16)).toUpper

/-- An operand that the mode of a START ignores: named unless it is 0, since an operand not named is 0 (30_encoding.md
R84). -/
def ignoredOperand (value : Nat) (text : String) : String := if value = 0 then "" else " " ++ text

/-- The operand `en=` of a START. -/
def enOperand (e : BitVec 24) : String := "en=0x" ++ hexDigits 6 e.toNat

/-- The operands of a START that only THRESH mode reads. -/
def tchOperand (t : BitVec 5) : String := "tch=" ++ toString t.toNat

def thrOperand (thr : BitVec 32) : String := "thr=0x" ++ hexDigits 8 thr.toNat

def budgetOperand (budget : BitVec 32) : String := "budget=" ++ toString budget.toNat

/-- The operands of a START in BATCH or STREAM mode. -/
def fullOperands (e : BitVec 24) (t : BitVec 5) (thr budget : BitVec 32) : String :=
  enOperand e ++ ignoredOperand t.toNat (tchOperand t) ++ ignoredOperand thr.toNat (thrOperand thr) ++
    ignoredOperand budget.toNat (budgetOperand budget)

/-- The trace notation of 30_encoding.md R84, one operation a line, from which the operation can be read back. The
operations that are no host operation have no line, nor has a START of mode 3, for which R84 has no word (DESIGN CHOICE,
with the spacing, the bases and the order of the operands; log entry 16). -/
def traceLine (i : Instr) : Option String :=
  match i with
  | .reset => some "RESET"
  | .nop => some "NOP"
  | .start m e t thr budget =>
    match Mode.ofCode m with
    | some .batch => some ("START BATCH " ++ fullOperands e t thr budget)
    | some .stream => some ("START STREAM " ++ fullOperands e t thr budget)
    | some .thresh =>
      some ("START THRESH " ++ tchOperand t ++ " " ++ thrOperand thr ++ " " ++ budgetOperand budget ++
        ignoredOperand e.toNat (enOperand e))
    | none => none
  | .push b => some ("PUSH 0x" ++ hexDigits 2 b.toNat)
  | .endInput => some "END"
  | .abort => some "ABORT"
  | .reserved5 => none
  | .reserved6 => none
  | .reserved7 => none
  | .drdyFall _ _ => none
  | .clkEdge _ _ => none
  | .noEdge _ _ => none
  | .hdr _ _ => none
  | .sign _ _ => none
  | .dataLo _ _ => none
  | .dataHi _ _ => none
  | .tskip _ _ _ => none
  | .tsign _ _ => none
  | .tdata _ _ _ => none
  | .tcmp _ => none
  | .remap _ => none
  | .emit => none

end Sys2Proof.Machine
end

