-- ==== Sys2Proof/Safety.lean ====
section
/-! DEFINITION. What a good state is: the invariants that the rules state or imply of every state a run reaches. -/

namespace Sys2Proof.Machine

/-- The word assembler's invariant, 10_state.md R23, with what it rests on: 41_word_assembler.md R117 (a word is a
sign-extended 24-bit value), 10_state.md R26 (no frame is open before a byte has been pushed), 60_exceptions.md R202 (the
words are not used in THRESH mode). -/
structure State.AssemblerInv (s : State) : Prop where
  /-- Between frames every word is 0. -/
  idle_zero : s.cc = none → ∀ i : Fin 24, s.readW i = 0
  /-- In a frame the words of a group not yet reached are 0. -/
  ahead_zero : ∀ n, s.cc = some n → ∀ i : Fin 24, 6 * (slotGroup n + 1) ≤ i.val → s.readW i = 0
  /-- The words of the group in progress are 0 until its SIGN edge. -/
  unsigned_zero : ∀ n, s.cc = some n → slotPos n ≤ 8 → ∀ i : Fin 24, 6 * slotGroup n ≤ i.val → s.readW i = 0
  /-- Every word is the sign extension of its low 24 bits. -/
  word_sext : ∀ i : Fin 24, s.readW i = sext24 ((s.readW i).setWidth 24)
  /-- A frame opens only on a pair. -/
  frame_has_prev : s.prevValid = false → s.cc = none
  /-- The words are not used in THRESH mode. -/
  thresh_zero : s.mode = .thresh → ∀ i : Fin 24, s.readW i = 0

/-- The threshold scanner's invariant: 10_state.md R27 and 60_exceptions.md R202 (its registers are 0 in the other modes),
R28 (`scanned` stays below the budget), R32 (a legal target), 45_threshold_prescanner.md R158, R160, R161 (`acc` is 0
before TSIGN, and a sign-extended value throughout; the range of `cc`). -/
structure State.ThresholdInv (s : State) : Prop where
  /-- The scanner's registers are not used in BATCH and STREAM modes. -/
  full_zero : s.mode ≠ .thresh → s.acc = 0 ∧ s.scanned = 0 ∧ s.result = .none
  /-- `acc` is the sign extension of its low 24 bits. -/
  acc_sext : s.acc = sext24 (s.acc.setWidth 24)
  /-- An active scan has a legal target. -/
  target_legal : s.sess = .active → s.mode = .thresh → s.tch.toNat ≤ 23
  /-- An active scan has not used up its budget. -/
  budget_left : s.sess = .active → s.mode = .thresh → s.scanned.toNat < s.budget.toNat
  /-- Between frames the accumulator is 0. -/
  idle_acc : s.sess = .active → s.mode = .thresh → s.cc = none → s.acc = 0
  /-- The counter does not pass the target word's last edge. -/
  count_range : s.sess = .active → s.mode = .thresh → ∀ n, s.cc = some n → n.toNat ≤ clockSkip s.tch + 23
  /-- The accumulator is 0 until TSIGN. -/
  unsigned_acc : s.sess = .active → s.mode = .thresh → ∀ n, s.cc = some n → n.toNat ≤ clockSkip s.tch → s.acc = 0

/-- The session's invariant, 46_session_control.md R174, R176, R177, R180. -/
structure State.SessionInv (s : State) : Prop where
  /-- FAILED and the transport error go together. -/
  failed_iff : s.sess = .failed ↔ s.err = .transportFailure
  /-- After a rejected START there is no session. -/
  rejected_none : s.err = .malformedConfiguration → s.sess = .none
  /-- A result is there only when the session is over. -/
  result_done : s.result ≠ .none → s.sess = .done
  /-- An active full decode has an enabled channel. -/
  enabled : s.sess = .active → s.mode ≠ .thresh → s.en ≠ 0
  /-- Without a session, and after a failed one, the decoder is clear. -/
  idle_clear : s.sess = .none ∨ s.sess = .failed → s.cc = none ∧ s.prevValid = false ∧ s.acc = 0

/-- The output's invariant, 42_sample_emitter.md R128 and 20_memory.md R52: whole records only, and none in THRESH mode. -/
structure State.OutputInv (s : State) : Prop where
  /-- The output of a BATCH or STREAM session is a whole number of records. -/
  whole_records : s.sess ≠ .none → s.mode ≠ .thresh → 4 * countEn s.en ∣ s.out.length
  /-- A THRESH session emits nothing. -/
  thresh_silent : s.sess ≠ .none → s.mode = .thresh → s.out = []
  /-- A record on the ports has the session's record length. -/
  emitted_length : ∀ r, s.emitted = some r → r.length = 4 * countEn s.en

end Sys2Proof.Machine
end

