-- ==== Sys2Proof/Certificates/Slice0/Obligations.lean ====
section
/-! DEFINITION. The statements for the provers, from the numbered rules of spec/. Where a statement rests on a field of the
model's own (`host`, `emitted`, `ret`) its docstring names the log entry. -/

open Sys2Proof Sys2Proof.Machine

/-! ### The host operations -/

/-- R171, R38: RESET gives every piece of state its reset value, keeps `out` and emits nothing. -/
def Obligations.ResetSetsEveryField : Prop :=
  ∀ s : State, ∃ t, exec .reset s = .next t ∧
    (∀ i : Fin 24, t.readW i = 0) ∧ t.ccReg = 0xFF ∧ t.prev = 0x00 ∧ t.prevValid = false ∧ t.acc = 0 ∧ t.scanned = 0 ∧
    t.sess = .none ∧ t.result = .none ∧ t.err = .none ∧ t.mode = .batch ∧ t.en = 0 ∧ t.tch = 0 ∧ t.thr = 0 ∧
    t.budget = 0 ∧ t.out = s.out ∧ t.emitted = none

/-- R38: the state at power-on, with an empty output trace, and RESET as one equation: all fields are those of power-on but
`out` and the operations the host has yet to present (`host` is the model's, log entry 1). -/
def Obligations.PowerOnState : Prop :=
  (∀ s : State, exec .reset s = .next { State.reset with out := s.out, host := s.host }) ∧
  (∀ i : Fin 24, State.reset.readW i = 0) ∧ State.reset.ccReg = 0xFF ∧ State.reset.prev = 0x00 ∧
    State.reset.prevValid = false ∧ State.reset.acc = 0 ∧ State.reset.scanned = 0 ∧ State.reset.sess = .none ∧
    State.reset.result = .none ∧ State.reset.err = .none ∧ State.reset.mode = .batch ∧ State.reset.en = 0 ∧
    State.reset.tch = 0 ∧ State.reset.thr = 0 ∧ State.reset.budget = 0 ∧ State.reset.out = []

/-- R172: NOP changes nothing. -/
def Obligations.NopChangesNothing : Prop := ∀ s : State, exec .nop s = .next s

/-- R173, R174: START clears the decoder, the status and `out` in every case; then a configuration that VALID rejects
raises code 3 and writes no latch, and one that it accepts is latched and opens a session, which a THRESH budget of 0 ends
at once. Everything else is unchanged. -/
def Obligations.StartClearsThenValidates : Prop :=
  ∀ (m : BitVec 2) (e : BitVec 24) (t : BitVec 5) (thr budget : BitVec 32) (s : State),
    let cleared : State :=
      { s with
        w := Vector.replicate 24 0, cc := none, prev := 0x00, prevValid := false, acc := 0, scanned := 0
        result := .none, err := .none, sess := .none, out := [] }
    (¬ (m = 0 ∧ e ≠ 0 ∨ m = 1 ∧ e ≠ 0 ∨ m = 2 ∧ t.toNat ≤ 23) →
      exec (.start m e t thr budget) s = .next { cleared with err := .malformedConfiguration }) ∧
    (m = 0 ∧ e ≠ 0 → exec (.start m e t thr budget) s = .next
      { cleared with mode := .batch, en := e, tch := t, thr := thr, budget := budget, sess := .active }) ∧
    (m = 1 ∧ e ≠ 0 → exec (.start m e t thr budget) s = .next
      { cleared with mode := .stream, en := e, tch := t, thr := thr, budget := budget, sess := .active }) ∧
    (m = 2 ∧ t.toNat ≤ 23 ∧ budget ≠ 0 → exec (.start m e t thr budget) s = .next
      { cleared with mode := .thresh, en := e, tch := t, thr := thr, budget := budget, sess := .active }) ∧
    (m = 2 ∧ t.toNat ≤ 23 ∧ budget = 0 → exec (.start m e t thr budget) s = .next
      { cleared with
        mode := .thresh, en := e, tch := t, thr := thr, budget := budget, sess := .done, result := .notTriggered })

/-- R137, R175: PUSH in an active BATCH or STREAM session. The five cases are those of FSTEP: the first byte, a frame
start, no frame start, a CLK edge, no CLK edge. -/
def Obligations.PushInFullMode : Prop :=
  ∀ (s : State) (b : Byte), s.sess = .active → s.mode ≠ .thresh →
    (s.prevValid = false → exec (.push b) s = .next { s with prev := b, prevValid := true }) ∧
    (s.prevValid = true → s.cc = none → (s.prev &&& 0x80 = 0x80 ∧ b &&& 0x80 = 0) →
      exec (.push b) s = .next { s with cc := some 0, prev := b, prevValid := true }) ∧
    (s.prevValid = true → s.cc = none → ¬ (s.prev &&& 0x80 = 0x80 ∧ b &&& 0x80 = 0) →
      exec (.push b) s = .next { s with prev := b, prevValid := true }) ∧
    (∀ n, s.prevValid = true → s.cc = some n → (s.prev &&& 0x40 = 0x40 ∧ b &&& 0x40 = 0) →
      exec (.push b) s = .next { s.clkStep n b with prev := b, prevValid := true }) ∧
    (∀ n, s.prevValid = true → s.cc = some n → ¬ (s.prev &&& 0x40 = 0x40 ∧ b &&& 0x40 = 0) →
      exec (.push b) s = .next { s with prev := b, prevValid := true })

/-- R115: CLK_STEP. The bit operation of the edge, then at edge 127 the record is appended to `out`, the words are cleared
and the counter is -1; at every other edge the counter goes up by one. -/
def Obligations.ClkStepCompletesAtEdge127 : Prop :=
  ∀ (s : State) (n : BitVec 7) (b : Byte),
    let bits : State :=
      if n.toNat % 32 < 8 then s else if n.toNat % 32 = 8 then s.signEdge n b else s.dataEdge n b
    (n = 127 → s.clkStep n b =
      { bits with
        out := bits.out ++ record bits.en bits.w, emitted := some (record bits.en bits.w)
        w := Vector.replicate 24 0, cc := none }) ∧
    (n ≠ 127 → s.clkStep n b = { bits with cc := some (n + 1) })

/-- R161, R162, R175: PUSH in an active THRESH session with a legal target, the byte budget not yet used up and the
counter in the scanner's range: `scanned` goes up by one, the event found is acted on, the byte is shifted in, and then,
unless the session has just ended by a trigger, reaching the budget ends it. -/
def Obligations.PushInThreshMode : Prop :=
  ∀ (s : State) (b : Byte), s.sess = .active → s.mode = .thresh → s.tch.toNat ≤ 23 →
    s.scanned.toNat < s.budget.toNat → (∀ n, s.cc = some n → n.toNat ≤ clockSkip s.tch + 23) →
    let counted : State := { s with scanned := s.scanned + 1 }
    let decoded : State :=
      if s.prevValid = false then counted
      else match s.cc with
        | none => if s.prev &&& 0x80 = 0x80 ∧ b &&& 0x80 = 0 then { counted with cc := some 0 } else counted
        | some n =>
          if s.prev &&& 0x40 = 0x40 ∧ b &&& 0x40 = 0 then
            let bits : State :=
              if n.toNat < clockSkip s.tch then counted
              else if n.toNat = clockSkip s.tch then counted.targetSign s.tch b
              else counted.targetData s.tch n b
            if n.toNat = clockSkip s.tch + 23 then bits.targetCompare else { bits with cc := some (n + 1) }
          else counted
    let shifted : State := { decoded with prev := b, prevValid := true }
    exec (.push b) s = .next
      (if shifted.sess = .active ∧ shifted.scanned = shifted.budget then
        { shifted with result := .notTriggered, sess := .done }
      else shifted)

/-- R178: outside an active session PUSH, END and ABORT change nothing, and NOP changes nothing in any state. -/
def Obligations.NoEffectOutsideSession : Prop :=
  ∀ s : State, exec .nop s = .next s ∧
    (s.sess ≠ .active → exec .endInput s = .next s ∧ exec .abort s = .next s ∧ ∀ b, exec (.push b) s = .next s)

/-- R176: END in an active session drops the open frame and clears the decoder; in THRESH mode it also clears `acc` and
answers NOT_TRIGGERED. Nothing else changes; outside an active session nothing changes. -/
def Obligations.EndClearsAndCloses : Prop :=
  ∀ s : State,
    (s.sess = .active → s.mode ≠ .thresh → exec .endInput s = .next
      { s with w := Vector.replicate 24 0, cc := none, prev := 0x00, prevValid := false, sess := .done }) ∧
    (s.sess = .active → s.mode = .thresh → exec .endInput s = .next
      { s with
        w := Vector.replicate 24 0, cc := none, prev := 0x00, prevValid := false, acc := 0, result := .notTriggered
        sess := .done }) ∧
    (s.sess ≠ .active → exec .endInput s = .next s)

/-- R177, R190, R193: ABORT in an active session clears the decoder and `acc`, latches code 2 and fails the session.
Nothing else changes; outside an active session nothing changes. -/
def Obligations.AbortRaisesTransportFailure : Prop :=
  ∀ s : State,
    (s.sess = .active → exec .abort s = .next
      { s with
        w := Vector.replicate 24 0, cc := none, prev := 0x00, prevValid := false, acc := 0
        err := .transportFailure, sess := .failed }) ∧
    (s.sess ≠ .active → exec .abort s = .next s)

/-- R179: the reserved codes 5, 6 and 7 with `rst` 0 are refused. -/
def Obligations.ReservedCodesRefused : Prop :=
  ∀ s : State,
    exec .reserved5 s = .refused (.reservedCommand 5) ∧ exec .reserved6 s = .refused (.reservedCommand 6) ∧
    exec .reserved7 s = .refused (.reservedCommand 7) ∧
    (s.ports.rst = false → s.ports.cmd = 5 ∨ s.ports.cmd = 6 ∨ s.ports.cmd = 7 →
      step s = .refused (.reservedCommand s.ports.cmd))

/-! ### The pair events -/

/-- R100, R101, R102: EDGE is the transition of the masked line from 1 to 0, for each of the eight one-bit masks; DRDY_FALL
is that of bit 7 and CLK_EDGE that of bit 6. -/
def Obligations.EdgeIsOneToZero : Prop :=
  ∀ prev cur : Byte,
    (∀ k : Fin 8, edge prev cur (BitVec.twoPow 8 k) = (prev.getLsbD k && !cur.getLsbD k)) ∧
    isDrdyFall prev cur = (prev.getLsbD 7 && !cur.getLsbD 7) ∧
    isClkEdge prev cur = (prev.getLsbD 6 && !cur.getLsbD 6)

/-- R111, R101, R104: the DRDY_FALL event starts a frame when none is open, and inside a frame, or with no previous byte,
only the byte is shifted in. That the event can stand on its own is the model's (log entry 7). -/
def Obligations.DrdyFallStartsFrame : Prop :=
  ∀ (s : State) (prev cur : Byte), prev &&& 0x80 = 0x80 → cur &&& 0x80 = 0 →
    (s.prevValid = true → s.cc = none →
      exec (.drdyFall prev cur) s = .next { s with cc := some 0, prev := cur, prevValid := true }) ∧
    (s.prevValid = false ∨ s.cc ≠ none →
      exec (.drdyFall prev cur) s = .next { s with prev := cur, prevValid := true })

/-- R102, R104, R115: the CLK_EDGE event in an open frame is CLK_STEP in BATCH and STREAM modes; between frames, or with no
previous byte, only the byte is shifted in. That the event can stand on its own is the model's (log entry 7). -/
def Obligations.ClkEdgeIsClkStep : Prop :=
  ∀ (s : State) (prev cur : Byte), prev &&& 0x40 = 0x40 → cur &&& 0x40 = 0 →
    (∀ n, s.prevValid = true → s.cc = some n → s.mode ≠ .thresh →
      exec (.clkEdge prev cur) s = .next { s.clkStep n cur with prev := cur, prevValid := true }) ∧
    (∀ n, s.prevValid = true → s.cc = some n → s.mode = .thresh →
      exec (.clkEdge prev cur) s = .next { s.targetStep n cur with prev := cur, prevValid := true }) ∧
    (s.prevValid = false ∨ s.cc = none →
      exec (.clkEdge prev cur) s = .next { s with prev := cur, prevValid := true })

/-- R103: NO_EDGE changes no state but the previous byte (as an event on its own, log entry 7). -/
def Obligations.NoEdgeOnlyShiftsIn : Prop :=
  ∀ (s : State) (prev cur : Byte), exec (.noEdge prev cur) s = .next { s with prev := cur, prevValid := true }

/-- R104, R137, R161: in an active session a PUSH with a previous byte performs exactly the event that the pair decodes to
under the counter's gating; in THRESH mode the byte is counted before it and the budget checked after it. The
events as operations of their own are the model's (log entry 7). -/
def Obligations.PushRunsDecodedPair : Prop :=
  ∀ (s : State) (b : Byte), s.sess = .active → s.prevValid = true →
    (s.mode ≠ .thresh → exec (.push b) s = exec (decodePair s.frameOpen (s.prev ++ b)) s) ∧
    (s.mode = .thresh → ∃ u,
      exec (decodePair s.frameOpen (s.prev ++ b)) { s with scanned := s.scannedNext } = .next u ∧
      exec (.push b) s = .next u.checkBudget)

/-- R108 (b): a byte that repeats the one before it changes nothing in a BATCH or STREAM session. -/
def Obligations.RepeatedByteHasNoEffect : Prop :=
  ∀ (s t : State) (b : Byte), s.sess = .active → s.mode ≠ .thresh → exec (.push b) s = .next t →
    exec (.push b) t = .next t

/-- R83: the inputs that are ignored. Two bytes that agree in the one line being looked for, DRDY between frames and CLK
inside one, leave states that differ in `prev` alone: in BATCH and STREAM modes unless the pair is a CLK edge past the
header, and in THRESH mode always, if they also agree in the target's line (for a legal target and a counter in the
scanner's range). -/
def Obligations.IgnoredLinesHaveNoEffect : Prop :=
  ∀ (s : State) (b c : Byte), (s.cc = none → b &&& 0x80 = c &&& 0x80) → (s.cc ≠ none → b &&& 0x40 = c &&& 0x40) →
    ((s.cc = none ∨ ¬ (s.prev &&& 0x40 = 0x40 ∧ b &&& 0x40 = 0) ∨ ∃ n, s.cc = some n ∧ n.toNat % 32 < 8) →
      s.fstep b = { s.fstep c with prev := b }) ∧
    (s.tch.toNat ≤ 23 → (∀ n, s.cc = some n → n.toNat ≤ clockSkip s.tch + 23) →
      lineBit b (targetLine s.tch) = lineBit c (targetLine s.tch) → s.tstep b = { s.tstep c with prev := b })

/-! ### The word assembler -/

/-- R112: a header edge changes nothing, whatever the byte. -/
def Obligations.HdrChangesNothing : Prop :=
  ∀ (s : State) (n : BitVec 7) (b : Byte), exec (.hdr n b) s = .next s

/-- R113: SIGN sets each word of the group whose line is 1 to 0xFF800000 and leaves every other word and all other state
unchanged. -/
def Obligations.SignPreloadsGroup : Prop :=
  ∀ (s : State) (n : BitVec 7) (b : Byte), ∃ t, exec (.sign n b) s = .next t ∧ t = { s with w := t.w } ∧
    ∀ i : Fin 24, t.readW i =
      if i.val / 6 = n.toNat / 32 ∧ b.getLsbD (lineShift ⟨i.val % 6, Nat.mod_lt _ (by decide)⟩) = true then 0xFF800000
      else s.readW i

/-- R114, R76: DATA ORs, into each word of the group whose line is 1, the bit `31 - n mod 32`, and leaves every other word
and all other state unchanged. Both rows of the table. -/
def Obligations.DataAccumulatesBit : Prop :=
  ∀ (s : State) (n : BitVec 7) (b : Byte), ∃ t, exec (.dataLo n b) s = .next t ∧ exec (.dataHi n b) s = .next t ∧
    t = { s with w := t.w } ∧
    ∀ i : Fin 24, t.readW i =
      if i.val / 6 = n.toNat / 32 ∧ b.getLsbD (lineShift ⟨i.val % 6, Nat.mod_lt _ (by decide)⟩) = true then
        s.readW i ||| BitVec.twoPow 32 (31 - n.toNat % 32)
      else s.readW i

/-- R115, R73: the bit operation of an edge is the instruction that its SLOT word decodes to. -/
def Obligations.ClkStepRunsDecodedSlot : Prop :=
  ∀ (s : State) (n : BitVec 7) (b : Byte), exec (decodeSlot n b) s = .next (s.bitEdge n b) ∧
    (∀ i, decodeSlotDone n = .ok i → exec i (s.bitEdge n b) = .next (s.bitEdge n b).emitRecord ∧
      s.clkStep n b = (s.bitEdge n b).emitRecord.endFrame) ∧
    (∀ x, decodeSlotDone n = .error x → s.clkStep n b = { s.bitEdge n b with cc := some (n + 1) })

/-- R118: from words that are 0, the 24 SIGN and DATA edges of a group leave each of its words the sign extension of the 24
bits its line carried, whatever the bytes, and so, as a signed number, `v - 2^24 * b_23` in the range of 24 bits.
`bytes j` is the byte after the edge of data bit `23 - j`. -/
def Obligations.GroupWordIsSignExtended : Prop :=
  ∀ (s : State) (g : Fin 4) (bytes : Fin 24 → Byte) (k : Fin 6), s.readW ⟨6 * g.val + k.val, by omega⟩ = 0 →
    let x : Word :=
      ((List.finRange 24).foldl
        (fun (x : State) (j : Fin 24) => x.bitEdge (BitVec.ofNat 7 (32 * g.val + 8 + j.val)) (bytes j)) s).readW
      ⟨6 * g.val + k.val, by omega⟩
    let v : BitVec 24 := BitVec.ofFnLE fun c : Fin 24 => (bytes ⟨23 - c.val, by omega⟩).getLsbD (lineShift k)
    x = sext24 v ∧ (v.getLsbD 23 = false → x = v.setWidth 32) ∧ (v.getLsbD 23 = true → x = 0xFF000000 ||| v.setWidth 32) ∧
      x.toInt = v.toNat - (if v.getLsbD 23 then 2 ^ 24 else 0) ∧ -8388608 ≤ x.toInt ∧ x.toInt ≤ 8388607

/-! ### The emitter -/

/-- R125, and log entry 6 for where the value stands: REMAP answers `(i * 6) mod 24 + i div 4` and changes no register of
the block. -/
def Obligations.RemapReturnsSlot : Prop :=
  ∀ (s : State) (i : Fin 24), ∃ r : Fin 24, r.val = i.val * 6 % 24 + i.val / 4 ∧
    exec (.remap i) s = .next { s with ret := some r }

/-- R125, R126: the remap is `(i * 6) mod 24 + i div 4`, which is group `i mod 4`, line `i div 4`, has the inverse
`4 * (s mod 6) + s div 6`, and so visits each slot exactly once. -/
def Obligations.RemapIsBijection : Prop :=
  (∀ i : Fin 24, (remapSlot i).val = i.val * 6 % 24 + i.val / 4 ∧ (remapSlot i).val = 6 * (i.val % 4) + i.val / 4 ∧
    4 * ((remapSlot i).val % 6) + (remapSlot i).val / 6 = i.val) ∧ Function.Bijective remapSlot

/-- R127, R78, R53: EMIT appends, for each enabled logical channel in ascending order, the four bytes of its slot's word,
least significant first, and changes nothing else (the same bytes stand on the record ports, log entry 5). -/
def Obligations.EmitAppendsRecord : Prop :=
  ∀ s : State,
    let r : List Byte :=
      ((List.finRange 24).filter fun (i : Fin 24) => s.en.getLsbD i).flatMap fun (i : Fin 24) =>
        let x := s.readW (remapSlot i)
        [x.extractLsb' 0 8, x.extractLsb' 8 8, x.extractLsb' 16 8, x.extractLsb' 24 8]
    exec .emit s = .next { s with out := s.out ++ r, emitted := some r }

/-- R130, R57, R22: the output changes only by START, which empties it, by EMIT, and by the CLK edge 127 of a BATCH or STREAM
frame, which appends one record of `4 * count(en)` bytes. -/
def Obligations.EmissionOnlyAtEdge127 : Prop :=
  ∀ (i : Instr) (s t : State), exec i s = .next t → t.out ≠ s.out →
    (t.out = [] ∧ ∃ m e c thr budget, i = .start m e c thr budget) ∨
    ((∃ r, t.out = s.out ++ r ∧ r.length = 4 * countEn s.en) ∧
      (i = .emit ∨ (s.cc = some 127 ∧ s.prevValid = true ∧ s.mode ≠ .thresh ∧
        ((∃ b, i = .push b ∧ s.sess = .active ∧ isClkEdge s.prev b = true) ∨
          ∃ p b, i = .clkEdge p b ∧ isClkEdge p b = true))))

/-! ### The threshold scanner -/

/-- R157: a skipped edge changes nothing, whatever the byte. -/
def Obligations.TskipChangesNothing : Prop :=
  ∀ (s : State) (t : BitVec 5) (n : BitVec 7) (b : Byte), exec (.tskip t n b) s = .next s

/-- R158: TSIGN sets `acc` to 0xFF800000 when the target's line is 1 and leaves it unchanged when it is 0. -/
def Obligations.TsignPreloadsAccumulator : Prop :=
  ∀ (s : State) (t : BitVec 5) (b : Byte) (h : t.toNat < 24),
    exec (.tsign t b) s = .next
      { s with acc := if b.getLsbD (lineShift ⟨t.toNat / 4, by omega⟩) = true then 0xFF800000 else s.acc }

/-- R159: TDATA ORs bit `23 - (n - clockSkip)` into `acc` when the target's line is 1 and changes nothing when it is 0. -/
def Obligations.TdataAccumulatesBit : Prop :=
  ∀ (s : State) (t : BitVec 5) (n : BitVec 7) (b : Byte) (h : t.toNat < 24), t.toNat % 4 * 32 + 8 < n.toNat →
    n.toNat ≤ t.toNat % 4 * 32 + 8 + 23 →
    exec (.tdata t n b) s = .next
      { s with
        acc :=
          if b.getLsbD (lineShift ⟨t.toNat / 4, by omega⟩) = true then
            s.acc ||| BitVec.twoPow 32 (23 - (n.toNat - (t.toNat % 4 * 32 + 8)))
          else s.acc }

/-- R160: TCMP compares signed, greater-or-equal. -/
def Obligations.TcmpTriggersOrRearms : Prop :=
  ∀ (s : State) (t : BitVec 5),
    (s.thr.toInt ≤ s.acc.toInt →
      exec (.tcmp t) s = .next { s with result := .triggered, sess := .done, cc := none }) ∧
    (s.acc.toInt < s.thr.toInt → exec (.tcmp t) s = .next { s with acc := 0, cc := none })

/-- R161, R75: the bit operation and the compare of a THRESH edge are the instructions that its TSLOT word decodes to, for
a legal target and an edge the scanner consumes. -/
def Obligations.TargetStepRunsDecodedSlot : Prop :=
  ∀ (s : State) (n : BitVec 7) (b : Byte), s.tch.toNat ≤ 23 → n.toNat ≤ clockSkip s.tch + 23 →
    ∃ i, decodeTslot s.tch n b = .ok i ∧ exec i s = .next (s.targetBit n b) ∧
      (∀ j, decodeTslotDone s.tch n = .ok j → exec j (s.targetBit n b) = .next (s.targetStep n b)) ∧
      (∀ x, decodeTslotDone s.tch n = .error x → s.targetStep n b = { s.targetBit n b with cc := some (n + 1) })

/-- R167: over one frame that both see whole, the word the scanner compares is the word the full decoder emits for the
target channel. `bytes n` is the byte after CLK edge `n`. -/
def Obligations.ScannerAgreesWithDecoder : Prop :=
  ∀ (s u : State) (bytes : Fin 128 → Byte), (∀ i : Fin 24, s.readW i = 0) → u.acc = 0 → (h : u.tch.toNat < 24) →
    ((List.finRange 128).foldl
        (fun (x : State) (n : Fin 128) => x.bitEdge (BitVec.ofNat 7 n.val) (bytes n)) s).readW
      (remapSlot ⟨u.tch.toNat, h⟩) =
    (((List.finRange 128).filter fun (n : Fin 128) => decide (n.val ≤ clockSkip u.tch + 23)).foldl
        (fun (x : State) (n : Fin 128) => x.targetBit (BitVec.ofNat 7 n.val) (bytes n)) u).acc

/-! ### The whole machine -/

/-- R15, R79: when the ports decode to an instruction, the step is that instruction on the state whose host queue has moved
on and whose step outputs are empty (log entries 1, 5 and 6). -/
def Obligations.StepRunsDecodedInstruction : Prop :=
  ∀ (s : State) (i : Instr), decode (.op s.ports) = .ok i →
    step s = exec i { s with host := s.host.tail, emitted := none, ret := none }

/-- R170: every operation is defined in every state; the only steps without a next state are those of a reserved code. -/
def Obligations.StepIsTotal : Prop :=
  ∀ s : State, (∃ t, step s = .next t) ↔
    ¬ (s.ports.rst = false ∧ (s.ports.cmd = 5 ∨ s.ports.cmd = 6 ∨ s.ports.cmd = 7))

/-- R191, R140: a byte never raises an error, and in BATCH and STREAM modes it never ends the session; PUSH answers a next
state in every state. -/
def Obligations.ByteRaisesNothing : Prop :=
  ∀ (s : State) (b : Byte), ∃ t, exec (.push b) s = .next t ∧ t.err = s.err ∧ (s.mode ≠ .thresh → t.sess = s.sess)

/-- R180: `sess` changes only as the table of the session state machine says. -/
def Obligations.SessionTable : Prop :=
  ∀ s : State,
    (∀ t, exec .reset s = .next t → t.sess = .none) ∧
    (∀ m e c thr budget t, exec (.start m e c thr budget) s = .next t →
      (valid m e c = false → t.sess = .none ∧ t.err = .malformedConfiguration) ∧
      (valid m e c = true → ¬ (m = 2 ∧ budget = 0) → t.sess = .active) ∧
      (valid m e c = true → m = 2 → budget = 0 → t.sess = .done ∧ t.result = .notTriggered)) ∧
    (∀ b t, s.sess = .active → exec (.push b) s = .next t →
      (s.mode ≠ .thresh → t.sess = .active) ∧
      (s.mode = .thresh → s.result = .none →
        ((t.sess = .active ∧ t.result = .none ∧ t.scanned ≠ s.budget) ∨
          (t.sess = .done ∧ t.result = .triggered ∧ s.thr.toInt ≤ t.acc.toInt) ∨
          (t.sess = .done ∧ t.result = .notTriggered ∧ t.scanned = s.budget)))) ∧
    (∀ t, s.sess = .active → exec .endInput s = .next t → t.sess = .done) ∧
    (∀ t, s.sess = .active → exec .abort s = .next t → t.sess = .failed ∧ t.err = .transportFailure) ∧
    (∀ i t, s.sess ≠ .active → i = .endInput ∨ i = .abort ∨ (∃ b, i = .push b) → exec i s = .next t → t.sess = s.sess) ∧
    (∀ t, exec .nop s = .next t → t.sess = s.sess)

/-- R22: what writes a decoded-word register. -/
def Obligations.WordsWrittenOnlyByAssembler : Prop :=
  ∀ (i : Instr) (s t : State), exec i s = .next t → t.w ≠ s.w →
    (∃ n b, i = .sign n b ∨ i = .dataLo n b ∨ i = .dataHi n b) ∨
    (s.mode ≠ .thresh ∧ s.prevValid = true ∧ s.cc ≠ none ∧
      ((∃ p b, i = .clkEdge p b ∧ isClkEdge p b = true) ∨
        ∃ b, i = .push b ∧ s.sess = .active ∧ isClkEdge s.prev b = true)) ∨
    ((∀ k : Fin 24, t.readW k = 0) ∧
      (i = .reset ∨ (∃ m e c thr budget, i = .start m e c thr budget) ∨
        (s.sess = .active ∧ (i = .endInput ∨ i = .abort))))

/-- R35: the five latches are written only by a START that VALID accepts, which writes its operands, and by RESET, which
clears them. -/
def Obligations.LatchesWrittenOnlyByStart : Prop :=
  ∀ (i : Instr) (s t : State), exec i s = .next t →
    (t.mode = s.mode ∧ t.en = s.en ∧ t.tch = s.tch ∧ t.thr = s.thr ∧ t.budget = s.budget) ∨
    (i = .reset ∧ t.mode = .batch ∧ t.en = 0 ∧ t.tch = 0 ∧ t.thr = 0 ∧ t.budget = 0) ∨
    (∃ m, i = .start m t.en t.tch t.thr t.budget ∧ valid m t.en t.tch = true ∧ t.mode.code = m)

/-- R24: `cc` reads as a signed 8-bit register with a value in -1..127, -1 exactly when no frame is open. How
State holds it is the model's (log entry 4). -/
def Obligations.CounterReadsSigned : Prop :=
  ∀ s : State, (s.cc = none → s.ccReg.toInt = -1 ∧ s.frameOpen = false) ∧
    (∀ n, s.cc = some n → s.ccReg.toInt = n.toNat ∧ s.frameOpen = true) ∧ -1 ≤ s.ccReg.toInt ∧ s.ccReg.toInt ≤ 127

/-- R81: the record ports carry the record emitted in the step: `rec_valid`, `rec_len`, and byte `b` in bits
`8b+7 : 8b` of `rec_data`, 0 past the record; with no record emitted they are 0, which is the model's choice
(log entry 5). -/
def Obligations.RecordPortsCarryRecord : Prop :=
  ∀ s : State,
    (∀ r, s.emitted = some r → r.length ≤ 96 →
      s.outPorts.recValid = true ∧ s.outPorts.recLen.toNat = r.length ∧
      ∀ b : Fin 96, s.outPorts.recData.extractLsb' (8 * b.val) 8 = r.getD b 0) ∧
    (s.emitted = none → s.outPorts.recValid = false ∧ s.outPorts.recData = 0)

/-! ### Runs of bytes -/

/-- R148, R165: where a chunk ends changes nothing. Chunks, each followed by any number of NOPs (a chunk read that is
outstanding, R172), run as their bytes pushed whole; and a run can be cut after any byte of an active session, in every
mode: what it leaves is a state from which the remaining bytes give what all of them give, and as long as the session is
active the cut leaves its last byte in `prev`, for the pair that straddles the boundary. -/
def Obligations.ChunkBoundariesInvisible : Prop :=
  (∀ (chunks : List (List Byte × Nat)) (s : State),
    run (chunks.flatMap fun c => pushN c.1 ++ List.replicate c.2 .nop) s = run (pushN (chunks.flatMap Prod.fst)) s) ∧
  (∀ (first rest : List Byte) (last : Byte) (s : State), s.sess = .active →
    ∃ t, run (pushN (first ++ [last])) s = .next t ∧ run (pushN (first ++ [last] ++ rest)) s = run (pushN rest) t ∧
      (t.sess = .active → t.prev = last ∧ t.prevValid = true) ∧ (s.mode ≠ .thresh → t.sess = .active))

/-- R151: a STREAM session and RUN_BATCH give the same output for every enable set but 0 and every byte sequence, from
whatever states they begin; the STREAM session still holds the open frame, the batch session has dropped it. -/
def Obligations.StreamEqualsBatch : Prop :=
  ∀ (en : BitVec 24) (buf : List Byte) (s u : State), en ≠ 0 →
    ∃ x y, run (.start 1 en 0 0 0 :: pushN buf) s = .next x ∧ run (runBatch en buf) u = .next y ∧ x.out = y.out ∧
      x.sess = .active ∧ y.sess = .done ∧ y.cc = none ∧ (∀ i : Fin 24, y.readW i = 0) ∧
      ∃ z, run (.start 0 en 0 0 0 :: pushN buf) u = .next z ∧ x.cc = z.cc ∧ x.w = z.w

/-- R142: RUN_BATCH of a shorter buffer gives a prefix of the output of the longer one, a whole number of records. -/
def Obligations.TruncationGivesPrefix : Prop :=
  ∀ (en : BitVec 24) (buf rest : List Byte) (s : State),
    ∃ x y, run (runBatch en buf) s = .next x ∧ run (runBatch en (buf ++ rest)) s = .next y ∧
      x.out <+: y.out ∧ 4 * countEn en ∣ x.out.length

/-- R166, R165: two THRESH sessions with the same parameters and the same bytes end with the same result, the same
`scanned` and the same `acc`, from whatever states they begin. -/
def Obligations.ScanForgetsEarlierState : Prop :=
  ∀ (e f : BitVec 24) (t : BitVec 5) (thr budget : BitVec 32) (buf : List Byte) (s u : State),
    ∃ x y, run (.start 2 e t thr budget :: pushN buf) s = .next x ∧ run (.start 2 f t thr budget :: pushN buf) u = .next y ∧
      x.result = y.result ∧ x.scanned = y.scanned ∧ x.acc = y.acc ∧ x.sess = y.sess ∧ x.cc = y.cc

/-- R105: NEXT_EDGE answers the least index from the cursor on whose pair is an edge of the masked line, and none when there
is no such index. -/
def Obligations.NextEdgeIsLeast : Prop :=
  ∀ (buf : List Byte) (start : Nat) (mask : Byte),
    let isEdge (i : Nat) : Prop :=
      ∃ a b, buf[i]? = some a ∧ buf[i + 1]? = some b ∧ a &&& mask = mask ∧ b &&& mask = 0
    (∀ i, nextEdge buf start mask = some i ↔ start ≤ i ∧ isEdge i ∧ ∀ j, start ≤ j → j < i → ¬ isEdge j) ∧
    (nextEdge buf start mask = none ↔ ∀ j, start ≤ j → ¬ isEdge j)

/-- R86, R118, R127, with the first property of the spec's source: a canonical frame, pushed in an active BATCH or STREAM
session between frames with clear words, appends the record of its 24 values sign-extended, in logical channel order over
the enabled channels, whatever the header, and leaves the decoder between frames with clear words. -/
def Obligations.CanonicalFrameRoundTrip : Prop :=
  ∀ (s : State) (v : Fin 24 → BitVec 24) (h : BitVec 8), s.sess = .active → s.mode ≠ .thresh → s.cc = none →
    (∀ i : Fin 24, s.readW i = 0) →
    ∃ t, run (frameOps v h) s = .next t ∧
      t.out = s.out ++ (List.finRange 24).flatMap
        (fun (i : Fin 24) => if s.en.getLsbD i then le32 (sext24 (v i)) else []) ∧
      t.cc = none ∧ ∀ i : Fin 24, t.readW i = 0

/-! ### Encoding -/

/-- R72 to R75, R79: decoding the encoding of a well-formed instruction gives it back, for every instruction and every
operand its encoding admits. -/
def Obligations.DecodeEncodeRoundTrip : Prop :=
  ∀ i : Instr, WellFormed i → decode (encode i) = .ok i

/-- R72 to R75: whatever the decoder answers is well-formed. -/
def Obligations.DecodedIsWellFormed : Prop :=
  ∀ (c : Code) (i : Instr), decode c = .ok i → WellFormed i

/-- R79: what the ports select, with `rst` above every `cmd` and the operands taken from their ports. -/
def Obligations.HostWordsDecode : Prop :=
  ∀ p : HostPorts,
    (p.rst = true → decode (.op p) = .ok .reset) ∧
    (p.rst = false → decode (.op p) = .ok
      (match p.cmd with
        | 0 => .nop
        | 1 => .start p.cfgMode p.cfgEn p.cfgTch p.cfgThr p.cfgBudget
        | 2 => .push p.din
        | 3 => .endInput
        | 4 => .abort
        | 5 => .reserved5
        | 6 => .reserved6
        | 7 => .reserved7))

/-- R72: a pair is a frame start or a CLK edge exactly when the bits of the two bytes in that one line are 1 and 0, as the
counter says which is looked for. -/
def Obligations.PairWordsDecode : Prop :=
  ∀ (p c : Byte),
    decode (.pair false (p ++ c)) =
      .ok (if p.getLsbD 7 = true ∧ c.getLsbD 7 = false then .drdyFall p c else .noEdge p c) ∧
    decode (.pair true (p ++ c)) =
      .ok (if p.getLsbD 6 = true ∧ c.getLsbD 6 = false then .clkEdge p c else .noEdge p c)

/-- R73 with the rows of the opcode table: the position of an edge in its group selects its micro-operation, and only edge
127 has one more. -/
def Obligations.SlotWordsDecode : Prop :=
  ∀ (n : BitVec 7) (cur : Byte),
    (n.toNat % 32 < 8 → decode (.slot n cur) = .ok (.hdr n cur)) ∧
    (n.toNat % 32 = 8 → decode (.slot n cur) = .ok (.sign n cur)) ∧
    (9 ≤ n.toNat % 32 → n.toNat % 32 < 16 → decode (.slot n cur) = .ok (.dataLo n cur)) ∧
    (16 ≤ n.toNat % 32 → decode (.slot n cur) = .ok (.dataHi n cur)) ∧
    (decode (.slotDone n) = if n.toNat = 127 then .ok .emit else .error (.noCompletionAtEdge n))

/-- R75, R156: for a legal target the edge number selects the scanner's micro-operation; edges past the target's word are
not consumed. -/
def Obligations.TargetSlotWordsDecode : Prop :=
  ∀ (t : BitVec 5) (n : BitVec 7) (cur : Byte), t.toNat ≤ 23 →
    let skip := t.toNat % 4 * 32 + 8
    (n.toNat < skip → decode (.tslot t n cur) = .ok (.tskip t n cur)) ∧
    (n.toNat = skip → decode (.tslot t n cur) = .ok (.tsign t cur)) ∧
    (skip < n.toNat → n.toNat ≤ skip + 23 → decode (.tslot t n cur) = .ok (.tdata t n cur)) ∧
    (skip + 23 < n.toNat → decode (.tslot t n cur) = .error (.edgeNotConsumed t n)) ∧
    (decode (.tslotDone t n) = if n.toNat = skip + 23 then .ok (.tcmp t) else .error (.edgeNotConsumed t n))

/-- R79, R72, R73: a few words written out from the spec's encodings, and `rst` beats every `cmd` (R197). -/
def Obligations.WrittenWordsDecode : Prop :=
  (∀ p : HostPorts, p.rst = true → decode (.op p) = .ok .reset) ∧
  decode (.op { HostPorts.idle with cmd := 0b010, din := 0x80 }) = .ok (.push 0x80) ∧
  decode (.op { HostPorts.idle with cmd := 0b011 }) = .ok .endInput ∧
  decode (.pair false 0b1100000100000000) = .ok (.drdyFall 0xC1 0x00) ∧
  decode (.pair true 0b0101000000010000) = .ok (.clkEdge 0x50 0x10) ∧
  decode (.slot 0b0101000 0x20) = .ok (.sign 40 0x20) ∧
  decode (.slot 0b0001001 0x10) = .ok (.dataLo 9 0x10) ∧
  decode (.slotDone 0b1111111) = .ok .emit ∧
  decode (.tslot 5 0b0101000 0x20) = .ok (.tsign 5 0x20)

/-! ### Invariants -/

/-- R23, R117: every step keeps the word assembler's invariant. -/
def Obligations.StepKeepsAssemblerInv : Prop :=
  ∀ s t : State, s.AssemblerInv → step s = .next t → t.AssemblerInv

/-- R27, R28, R161: every step keeps the threshold scanner's invariant. -/
def Obligations.StepKeepsThresholdInv : Prop :=
  ∀ s t : State, s.ThresholdInv → step s = .next t → t.ThresholdInv

/-- R180: every step keeps the session's invariant. -/
def Obligations.StepKeepsSessionInv : Prop :=
  ∀ s t : State, s.SessionInv → step s = .next t → t.SessionInv

/-- R128, R52: every step keeps the output's invariant. -/
def Obligations.StepKeepsOutputInv : Prop :=
  ∀ s t : State, s.OutputInv → step s = .next t → t.OutputInv

/-- R38: the state after reset meets the four invariants. -/
def Obligations.ResetMeetsInvariants : Prop :=
  State.reset.AssemblerInv ∧ State.reset.ThresholdInv ∧ State.reset.SessionInv ∧ State.reset.OutputInv
end

