-- ==== Sys2Proof/Laws/Operands.lean ====
section
/-! SUPPORT. One lemma for each pure function of Machine/Operands.lean: what it answers, in bits. -/

namespace Sys2Proof.Machine

/-- A line's mask selects the bit its shift names (30_encoding.md R71). -/
theorem lineMask_eq_twoPow (k : Fin 6) : lineMask k = BitVec.twoPow 8 (lineShift k) := by
  revert k; decide

theorem lineShift_lt (k : Fin 6) : lineShift k < 6 := by
  revert k; decide

theorem isDrdyFall_iff (p c : Byte) : isDrdyFall p c = true ↔ p &&& 0x80 = 0x80 ∧ c &&& 0x80 = 0 := by
  simp [isDrdyFall, edge, drdyMask]

theorem isClkEdge_iff (p c : Byte) : isClkEdge p c = true ↔ p &&& 0x40 = 0x40 ∧ c &&& 0x40 = 0 := by
  simp [isClkEdge, edge, clkMask]

/-- A byte equal to its predecessor is no edge (40_edge_scanner.md R100). -/
@[simp] theorem isDrdyFall_self (c : Byte) : isDrdyFall c c = false := by
  revert c; decide

@[simp] theorem isClkEdge_self (c : Byte) : isClkEdge c c = false := by
  revert c; decide

/-- The bit of a wired line, as a 0 or 1 of eight bits. -/
theorem lineBit_eq (cur : Byte) (k : Nat) (h : k < 6) :
    lineBit cur k = if cur.getLsbD (lineShift ⟨k, h⟩) then 1 else 0 := by
  simp only [lineBit, h, dif_pos]
  generalize (⟨k, h⟩ : Fin 6) = j
  revert cur j; decide

theorem signSet_eq (cur : Byte) (k : Nat) (h : k < 6) : signSet cur k = cur.getLsbD (lineShift ⟨k, h⟩) := by
  simp only [signSet, h, dif_pos]
  generalize (⟨k, h⟩ : Fin 6) = j
  revert cur j; decide

/-- The contribution of a wired line is 0 or one bit (30_encoding.md R76). -/
theorem contrib_eq (cur : Byte) (k c : Nat) (h : k < 6) :
    contrib cur k c = if cur.getLsbD (lineShift ⟨k, h⟩) then BitVec.twoPow 32 c else 0 := by
  rw [contrib, lineBit_eq cur k h]
  split
  · simp only [BitVec.twoPow_eq]; rfl
  · simp

/-- One lane of SIGN: 0xFF800000 where the line is 1, the word as it was where it is 0 (41_word_assembler.md R113). -/
theorem signLane_eq (cur : Byte) (k : Nat) (x : Word) (h : k < 6) :
    signLane cur k x = if cur.getLsbD (lineShift ⟨k, h⟩) then 0xFF800000 else x := by
  rw [signLane, signSet_eq cur k h, contrib_eq cur k 23 h]
  split
  · decide
  · simp

/-- One lane of DATA (41_word_assembler.md R114). -/
theorem dataLane_eq (cur : Byte) (c k : Nat) (x : Word) (h : k < 6) :
    dataLane cur c k x = if cur.getLsbD (lineShift ⟨k, h⟩) then x ||| BitVec.twoPow 32 c else x := by
  rw [dataLane, contrib_eq cur k c h]
  split <;> simp

@[simp] theorem le32_length (x : Word) : (le32 x).length = 4 := rfl

/-- Every record has length `4 * count(en)` (42_sample_emitter.md R128). -/
@[simp] theorem record_length (en : BitVec 24) (w : Vector Word 24) : (record en w).length = 4 * countEn en := by
  unfold record countEn
  induction List.finRange 24 with
  | nil => rfl
  | cons i l ih =>
    rw [List.flatMap_cons, List.length_append, ih, List.countP_cons]
    cases en.getLsbD i
    · simp
    · simp only [if_true, le32_length]; omega

/-- The bits of `sext_24_32(v)` (00_scope.md R13). -/
theorem getLsbD_sext24 (v : BitVec 24) (j : Nat) (hj : j < 32) :
    (sext24 v).getLsbD j = if j < 24 then v.getLsbD j else v.getLsbD 23 := by
  have hfill : ∀ j < 32, (0xFF000000 : Word).getLsbD j = decide (24 ≤ j) := by decide
  unfold sext24
  by_cases hb : v.getLsbD 23 = true
  · rw [if_pos hb, BitVec.getLsbD_or, hfill j hj, BitVec.getLsbD_setWidth, hb]
    by_cases h : j < 24
    · rw [if_pos h, decide_eq_false (by omega), decide_eq_true hj, Bool.false_or, Bool.true_and]
    · rw [if_neg h, decide_eq_true (by omega), Bool.true_or]
  · rw [if_neg hb, BitVec.getLsbD_setWidth, decide_eq_true hj, Bool.true_and]
    by_cases h : j < 24
    · rw [if_pos h]
    · rw [if_neg h, BitVec.getLsbD_of_ge v j (by omega)]
      exact (Bool.eq_false_iff.mpr hb).symm

/-- A word is a sign-extended 24-bit value when its top nine bits agree. -/
theorem eq_sext24_iff (x : Word) : x = sext24 (x.setWidth 24) ↔ ∀ j, 24 ≤ j → j < 32 → x.getLsbD j = x.getLsbD 23 := by
  constructor
  · intro h j h1 h2
    rw [h, getLsbD_sext24 _ j h2, getLsbD_sext24 _ 23 (by omega), if_neg (by omega), if_pos (by omega)]
  · intro h
    apply BitVec.eq_of_getLsbD_eq
    intro j hj
    rw [getLsbD_sext24 _ j hj, BitVec.getLsbD_setWidth, BitVec.getLsbD_setWidth]
    by_cases h4 : j < 24
    · rw [if_pos h4, decide_eq_true h4, Bool.true_and]
    · rw [if_neg h4, h j (by omega) hj]; rfl

end Sys2Proof.Machine
end

