-- ==== Sys2Proof/Laws/Decode.lean ====
section
/-! SUPPORT. One lemma for each decoder of Decode.lean, in the terms of the rules instead of masks. -/

namespace Sys2Proof.Machine

theorem extract_prev (p c : Byte) : (p ++ c).extractLsb' 8 8 = p := by
  exact BitVec.extractLsb'_append_eq_left

theorem extract_cur (p c : Byte) : (p ++ c).extractLsb' 0 8 = c := by
  exact BitVec.extractLsb'_append_eq_right

/-- A pair of bytes equals another pair when both bytes do. -/
theorem append_eq_append_iff (p c q d : Byte) : (p ++ c : BitVec 16) = q ++ d ↔ p = q ∧ c = d := by
  constructor
  · intro h
    exact ⟨by rw [← extract_prev p c, h, extract_prev], by rw [← extract_cur p c, h, extract_cur]⟩
  · rintro ⟨rfl, rfl⟩
    rfl

/-- The table's mask and match for DRDY_FALL are the test of 40_edge_scanner.md R101. -/
theorem pair_drdy_iff (p c : Byte) : (p ++ c : BitVec 16) &&& 0x8080 = 0x8000 ↔ isDrdyFall p c = true := by
  have h1 : (0x8080 : BitVec 16) = (0x80 : Byte) ++ (0x80 : Byte) := rfl
  have h2 : (0x8000 : BitVec 16) = (0x80 : Byte) ++ (0x00 : Byte) := rfl
  rw [h1, h2, BitVec.and_append, append_eq_append_iff, isDrdyFall_iff]

/-- The table's mask and match for CLK_EDGE are the test of 40_edge_scanner.md R102. -/
theorem pair_clk_iff (p c : Byte) : (p ++ c : BitVec 16) &&& 0x4040 = 0x4000 ↔ isClkEdge p c = true := by
  have h1 : (0x4040 : BitVec 16) = (0x40 : Byte) ++ (0x40 : Byte) := rfl
  have h2 : (0x4000 : BitVec 16) = (0x40 : Byte) ++ (0x00 : Byte) := rfl
  rw [h1, h2, BitVec.and_append, append_eq_append_iff, isClkEdge_iff]

/-- Format PAIR between frames (40_edge_scanner.md R104). -/
theorem decodePair_idle (p c : Byte) :
    decodePair false (p ++ c) = if isDrdyFall p c = true then .drdyFall p c else .noEdge p c := by
  simp only [decodePair, extract_prev, extract_cur, pair_drdy_iff]

/-- Format PAIR inside a frame (40_edge_scanner.md R104). -/
theorem decodePair_open (p c : Byte) :
    decodePair true (p ++ c) = if isClkEdge p c = true then .clkEdge p c else .noEdge p c := by
  simp only [decodePair, extract_prev, extract_cur, pair_clk_iff]

theorem slot_hdr_iff (n : BitVec 7) : n &&& 0x18 = 0x00 ↔ slotPos n < 8 := by
  revert n; decide

theorem slot_sign_iff (n : BitVec 7) : n &&& 0x1F = 0x08 ↔ slotPos n = 8 := by
  revert n; decide

theorem slot_dataLo_iff (n : BitVec 7) : n &&& 0x18 = 0x08 ↔ 8 ≤ slotPos n ∧ slotPos n < 16 := by
  revert n; decide

theorem slot_last_iff (n : BitVec 7) : n &&& 0x7F = 0x7F ↔ n = 127 := by
  revert n; decide

/-- Format SLOT by position (30_encoding.md R73). -/
theorem decodeSlot_eq (n : BitVec 7) (cur : Byte) :
    decodeSlot n cur =
      if slotPos n < 8 then .hdr n cur else if slotPos n = 8 then .sign n cur
      else if 8 ≤ slotPos n ∧ slotPos n < 16 then .dataLo n cur else .dataHi n cur := by
  simp only [decodeSlot, slot_hdr_iff, slot_sign_iff, slot_dataLo_iff]

end Sys2Proof.Machine
end

