-- ==== Sys2Proof/Laws/State.lean ====
section
/-! SUPPORT. One lemma per field per state update, each @[simp], so that no proof unfolds a record update. -/

namespace Sys2Proof.Machine

/-! `updateGroup` -/
@[simp] theorem State.updateGroup_w (s : State) (g : Nat) (f : Nat → Word → Word) :
    (s.updateGroup g f).w = s.w.mapIdx fun i x => if i / 6 = g then f (i % 6) x else x := rfl
@[simp] theorem State.updateGroup_cc (s : State) (g : Nat) (f : Nat → Word → Word) :
    (s.updateGroup g f).cc = s.cc := rfl
@[simp] theorem State.updateGroup_prev (s : State) (g : Nat) (f : Nat → Word → Word) :
    (s.updateGroup g f).prev = s.prev := rfl
@[simp] theorem State.updateGroup_prevValid (s : State) (g : Nat) (f : Nat → Word → Word) :
    (s.updateGroup g f).prevValid = s.prevValid := rfl
@[simp] theorem State.updateGroup_acc (s : State) (g : Nat) (f : Nat → Word → Word) :
    (s.updateGroup g f).acc = s.acc := rfl
@[simp] theorem State.updateGroup_scanned (s : State) (g : Nat) (f : Nat → Word → Word) :
    (s.updateGroup g f).scanned = s.scanned := rfl
@[simp] theorem State.updateGroup_sess (s : State) (g : Nat) (f : Nat → Word → Word) :
    (s.updateGroup g f).sess = s.sess := rfl
@[simp] theorem State.updateGroup_result (s : State) (g : Nat) (f : Nat → Word → Word) :
    (s.updateGroup g f).result = s.result := rfl
@[simp] theorem State.updateGroup_err (s : State) (g : Nat) (f : Nat → Word → Word) :
    (s.updateGroup g f).err = s.err := rfl
@[simp] theorem State.updateGroup_mode (s : State) (g : Nat) (f : Nat → Word → Word) :
    (s.updateGroup g f).mode = s.mode := rfl
@[simp] theorem State.updateGroup_en (s : State) (g : Nat) (f : Nat → Word → Word) :
    (s.updateGroup g f).en = s.en := rfl
@[simp] theorem State.updateGroup_tch (s : State) (g : Nat) (f : Nat → Word → Word) :
    (s.updateGroup g f).tch = s.tch := rfl
@[simp] theorem State.updateGroup_thr (s : State) (g : Nat) (f : Nat → Word → Word) :
    (s.updateGroup g f).thr = s.thr := rfl
@[simp] theorem State.updateGroup_budget (s : State) (g : Nat) (f : Nat → Word → Word) :
    (s.updateGroup g f).budget = s.budget := rfl
@[simp] theorem State.updateGroup_out (s : State) (g : Nat) (f : Nat → Word → Word) :
    (s.updateGroup g f).out = s.out := rfl
@[simp] theorem State.updateGroup_emitted (s : State) (g : Nat) (f : Nat → Word → Word) :
    (s.updateGroup g f).emitted = s.emitted := rfl
@[simp] theorem State.updateGroup_host (s : State) (g : Nat) (f : Nat → Word → Word) :
    (s.updateGroup g f).host = s.host := rfl
@[simp] theorem State.updateGroup_ret (s : State) (g : Nat) (f : Nat → Word → Word) :
    (s.updateGroup g f).ret = s.ret := rfl

/-! `endFrame` -/
@[simp] theorem State.endFrame_w (s : State) :
    s.endFrame.w = Vector.replicate 24 0 := rfl
@[simp] theorem State.endFrame_cc (s : State) :
    s.endFrame.cc = none := rfl
@[simp] theorem State.endFrame_prev (s : State) :
    s.endFrame.prev = s.prev := rfl
@[simp] theorem State.endFrame_prevValid (s : State) :
    s.endFrame.prevValid = s.prevValid := rfl
@[simp] theorem State.endFrame_acc (s : State) :
    s.endFrame.acc = s.acc := rfl
@[simp] theorem State.endFrame_scanned (s : State) :
    s.endFrame.scanned = s.scanned := rfl
@[simp] theorem State.endFrame_sess (s : State) :
    s.endFrame.sess = s.sess := rfl
@[simp] theorem State.endFrame_result (s : State) :
    s.endFrame.result = s.result := rfl
@[simp] theorem State.endFrame_err (s : State) :
    s.endFrame.err = s.err := rfl
@[simp] theorem State.endFrame_mode (s : State) :
    s.endFrame.mode = s.mode := rfl
@[simp] theorem State.endFrame_en (s : State) :
    s.endFrame.en = s.en := rfl
@[simp] theorem State.endFrame_tch (s : State) :
    s.endFrame.tch = s.tch := rfl
@[simp] theorem State.endFrame_thr (s : State) :
    s.endFrame.thr = s.thr := rfl
@[simp] theorem State.endFrame_budget (s : State) :
    s.endFrame.budget = s.budget := rfl
@[simp] theorem State.endFrame_out (s : State) :
    s.endFrame.out = s.out := rfl
@[simp] theorem State.endFrame_emitted (s : State) :
    s.endFrame.emitted = s.emitted := rfl
@[simp] theorem State.endFrame_host (s : State) :
    s.endFrame.host = s.host := rfl
@[simp] theorem State.endFrame_ret (s : State) :
    s.endFrame.ret = s.ret := rfl

/-! `frameStart` -/
@[simp] theorem State.frameStart_w (s : State) :
    s.frameStart.w = s.w := rfl
@[simp] theorem State.frameStart_cc (s : State) :
    s.frameStart.cc = some 0 := rfl
@[simp] theorem State.frameStart_prev (s : State) :
    s.frameStart.prev = s.prev := rfl
@[simp] theorem State.frameStart_prevValid (s : State) :
    s.frameStart.prevValid = s.prevValid := rfl
@[simp] theorem State.frameStart_acc (s : State) :
    s.frameStart.acc = s.acc := rfl
@[simp] theorem State.frameStart_scanned (s : State) :
    s.frameStart.scanned = s.scanned := rfl
@[simp] theorem State.frameStart_sess (s : State) :
    s.frameStart.sess = s.sess := rfl
@[simp] theorem State.frameStart_result (s : State) :
    s.frameStart.result = s.result := rfl
@[simp] theorem State.frameStart_err (s : State) :
    s.frameStart.err = s.err := rfl
@[simp] theorem State.frameStart_mode (s : State) :
    s.frameStart.mode = s.mode := rfl
@[simp] theorem State.frameStart_en (s : State) :
    s.frameStart.en = s.en := rfl
@[simp] theorem State.frameStart_tch (s : State) :
    s.frameStart.tch = s.tch := rfl
@[simp] theorem State.frameStart_thr (s : State) :
    s.frameStart.thr = s.thr := rfl
@[simp] theorem State.frameStart_budget (s : State) :
    s.frameStart.budget = s.budget := rfl
@[simp] theorem State.frameStart_out (s : State) :
    s.frameStart.out = s.out := rfl
@[simp] theorem State.frameStart_emitted (s : State) :
    s.frameStart.emitted = s.emitted := rfl
@[simp] theorem State.frameStart_host (s : State) :
    s.frameStart.host = s.host := rfl
@[simp] theorem State.frameStart_ret (s : State) :
    s.frameStart.ret = s.ret := rfl

/-! `countEdge` -/
@[simp] theorem State.countEdge_w (s : State) (n : BitVec 7) :
    (s.countEdge n).w = s.w := rfl
@[simp] theorem State.countEdge_cc (s : State) (n : BitVec 7) :
    (s.countEdge n).cc = some (n + 1) := rfl
@[simp] theorem State.countEdge_prev (s : State) (n : BitVec 7) :
    (s.countEdge n).prev = s.prev := rfl
@[simp] theorem State.countEdge_prevValid (s : State) (n : BitVec 7) :
    (s.countEdge n).prevValid = s.prevValid := rfl
@[simp] theorem State.countEdge_acc (s : State) (n : BitVec 7) :
    (s.countEdge n).acc = s.acc := rfl
@[simp] theorem State.countEdge_scanned (s : State) (n : BitVec 7) :
    (s.countEdge n).scanned = s.scanned := rfl
@[simp] theorem State.countEdge_sess (s : State) (n : BitVec 7) :
    (s.countEdge n).sess = s.sess := rfl
@[simp] theorem State.countEdge_result (s : State) (n : BitVec 7) :
    (s.countEdge n).result = s.result := rfl
@[simp] theorem State.countEdge_err (s : State) (n : BitVec 7) :
    (s.countEdge n).err = s.err := rfl
@[simp] theorem State.countEdge_mode (s : State) (n : BitVec 7) :
    (s.countEdge n).mode = s.mode := rfl
@[simp] theorem State.countEdge_en (s : State) (n : BitVec 7) :
    (s.countEdge n).en = s.en := rfl
@[simp] theorem State.countEdge_tch (s : State) (n : BitVec 7) :
    (s.countEdge n).tch = s.tch := rfl
@[simp] theorem State.countEdge_thr (s : State) (n : BitVec 7) :
    (s.countEdge n).thr = s.thr := rfl
@[simp] theorem State.countEdge_budget (s : State) (n : BitVec 7) :
    (s.countEdge n).budget = s.budget := rfl
@[simp] theorem State.countEdge_out (s : State) (n : BitVec 7) :
    (s.countEdge n).out = s.out := rfl
@[simp] theorem State.countEdge_emitted (s : State) (n : BitVec 7) :
    (s.countEdge n).emitted = s.emitted := rfl
@[simp] theorem State.countEdge_host (s : State) (n : BitVec 7) :
    (s.countEdge n).host = s.host := rfl
@[simp] theorem State.countEdge_ret (s : State) (n : BitVec 7) :
    (s.countEdge n).ret = s.ret := rfl

/-! `shiftIn` -/
@[simp] theorem State.shiftIn_w (s : State) (b : Byte) :
    (s.shiftIn b).w = s.w := rfl
@[simp] theorem State.shiftIn_cc (s : State) (b : Byte) :
    (s.shiftIn b).cc = s.cc := rfl
@[simp] theorem State.shiftIn_prev (s : State) (b : Byte) :
    (s.shiftIn b).prev = b := rfl
@[simp] theorem State.shiftIn_prevValid (s : State) (b : Byte) :
    (s.shiftIn b).prevValid = true := rfl
@[simp] theorem State.shiftIn_acc (s : State) (b : Byte) :
    (s.shiftIn b).acc = s.acc := rfl
@[simp] theorem State.shiftIn_scanned (s : State) (b : Byte) :
    (s.shiftIn b).scanned = s.scanned := rfl
@[simp] theorem State.shiftIn_sess (s : State) (b : Byte) :
    (s.shiftIn b).sess = s.sess := rfl
@[simp] theorem State.shiftIn_result (s : State) (b : Byte) :
    (s.shiftIn b).result = s.result := rfl
@[simp] theorem State.shiftIn_err (s : State) (b : Byte) :
    (s.shiftIn b).err = s.err := rfl
@[simp] theorem State.shiftIn_mode (s : State) (b : Byte) :
    (s.shiftIn b).mode = s.mode := rfl
@[simp] theorem State.shiftIn_en (s : State) (b : Byte) :
    (s.shiftIn b).en = s.en := rfl
@[simp] theorem State.shiftIn_tch (s : State) (b : Byte) :
    (s.shiftIn b).tch = s.tch := rfl
@[simp] theorem State.shiftIn_thr (s : State) (b : Byte) :
    (s.shiftIn b).thr = s.thr := rfl
@[simp] theorem State.shiftIn_budget (s : State) (b : Byte) :
    (s.shiftIn b).budget = s.budget := rfl
@[simp] theorem State.shiftIn_out (s : State) (b : Byte) :
    (s.shiftIn b).out = s.out := rfl
@[simp] theorem State.shiftIn_emitted (s : State) (b : Byte) :
    (s.shiftIn b).emitted = s.emitted := rfl
@[simp] theorem State.shiftIn_host (s : State) (b : Byte) :
    (s.shiftIn b).host = s.host := rfl
@[simp] theorem State.shiftIn_ret (s : State) (b : Byte) :
    (s.shiftIn b).ret = s.ret := rfl

/-! `clearDecoder` -/
@[simp] theorem State.clearDecoder_w (s : State) :
    s.clearDecoder.w = Vector.replicate 24 0 := rfl
@[simp] theorem State.clearDecoder_cc (s : State) :
    s.clearDecoder.cc = none := rfl
@[simp] theorem State.clearDecoder_prev (s : State) :
    s.clearDecoder.prev = 0x00 := rfl
@[simp] theorem State.clearDecoder_prevValid (s : State) :
    s.clearDecoder.prevValid = false := rfl
@[simp] theorem State.clearDecoder_acc (s : State) :
    s.clearDecoder.acc = s.acc := rfl
@[simp] theorem State.clearDecoder_scanned (s : State) :
    s.clearDecoder.scanned = s.scanned := rfl
@[simp] theorem State.clearDecoder_sess (s : State) :
    s.clearDecoder.sess = s.sess := rfl
@[simp] theorem State.clearDecoder_result (s : State) :
    s.clearDecoder.result = s.result := rfl
@[simp] theorem State.clearDecoder_err (s : State) :
    s.clearDecoder.err = s.err := rfl
@[simp] theorem State.clearDecoder_mode (s : State) :
    s.clearDecoder.mode = s.mode := rfl
@[simp] theorem State.clearDecoder_en (s : State) :
    s.clearDecoder.en = s.en := rfl
@[simp] theorem State.clearDecoder_tch (s : State) :
    s.clearDecoder.tch = s.tch := rfl
@[simp] theorem State.clearDecoder_thr (s : State) :
    s.clearDecoder.thr = s.thr := rfl
@[simp] theorem State.clearDecoder_budget (s : State) :
    s.clearDecoder.budget = s.budget := rfl
@[simp] theorem State.clearDecoder_out (s : State) :
    s.clearDecoder.out = s.out := rfl
@[simp] theorem State.clearDecoder_emitted (s : State) :
    s.clearDecoder.emitted = s.emitted := rfl
@[simp] theorem State.clearDecoder_host (s : State) :
    s.clearDecoder.host = s.host := rfl
@[simp] theorem State.clearDecoder_ret (s : State) :
    s.clearDecoder.ret = s.ret := rfl

/-! `raise` -/
@[simp] theorem State.raise_w (s : State) (e : Err) :
    (s.raise e).w = s.w := rfl
@[simp] theorem State.raise_cc (s : State) (e : Err) :
    (s.raise e).cc = s.cc := rfl
@[simp] theorem State.raise_prev (s : State) (e : Err) :
    (s.raise e).prev = s.prev := rfl
@[simp] theorem State.raise_prevValid (s : State) (e : Err) :
    (s.raise e).prevValid = s.prevValid := rfl
@[simp] theorem State.raise_acc (s : State) (e : Err) :
    (s.raise e).acc = s.acc := rfl
@[simp] theorem State.raise_scanned (s : State) (e : Err) :
    (s.raise e).scanned = s.scanned := rfl
@[simp] theorem State.raise_sess (s : State) (e : Err) :
    (s.raise e).sess = s.sess := rfl
@[simp] theorem State.raise_result (s : State) (e : Err) :
    (s.raise e).result = s.result := rfl
@[simp] theorem State.raise_err (s : State) (e : Err) :
    (s.raise e).err = e := rfl
@[simp] theorem State.raise_mode (s : State) (e : Err) :
    (s.raise e).mode = s.mode := rfl
@[simp] theorem State.raise_en (s : State) (e : Err) :
    (s.raise e).en = s.en := rfl
@[simp] theorem State.raise_tch (s : State) (e : Err) :
    (s.raise e).tch = s.tch := rfl
@[simp] theorem State.raise_thr (s : State) (e : Err) :
    (s.raise e).thr = s.thr := rfl
@[simp] theorem State.raise_budget (s : State) (e : Err) :
    (s.raise e).budget = s.budget := rfl
@[simp] theorem State.raise_out (s : State) (e : Err) :
    (s.raise e).out = s.out := rfl
@[simp] theorem State.raise_emitted (s : State) (e : Err) :
    (s.raise e).emitted = s.emitted := rfl
@[simp] theorem State.raise_host (s : State) (e : Err) :
    (s.raise e).host = s.host := rfl
@[simp] theorem State.raise_ret (s : State) (e : Err) :
    (s.raise e).ret = s.ret := rfl

/-! `emitRecord` -/
@[simp] theorem State.emitRecord_w (s : State) :
    s.emitRecord.w = s.w := rfl
@[simp] theorem State.emitRecord_cc (s : State) :
    s.emitRecord.cc = s.cc := rfl
@[simp] theorem State.emitRecord_prev (s : State) :
    s.emitRecord.prev = s.prev := rfl
@[simp] theorem State.emitRecord_prevValid (s : State) :
    s.emitRecord.prevValid = s.prevValid := rfl
@[simp] theorem State.emitRecord_acc (s : State) :
    s.emitRecord.acc = s.acc := rfl
@[simp] theorem State.emitRecord_scanned (s : State) :
    s.emitRecord.scanned = s.scanned := rfl
@[simp] theorem State.emitRecord_sess (s : State) :
    s.emitRecord.sess = s.sess := rfl
@[simp] theorem State.emitRecord_result (s : State) :
    s.emitRecord.result = s.result := rfl
@[simp] theorem State.emitRecord_err (s : State) :
    s.emitRecord.err = s.err := rfl
@[simp] theorem State.emitRecord_mode (s : State) :
    s.emitRecord.mode = s.mode := rfl
@[simp] theorem State.emitRecord_en (s : State) :
    s.emitRecord.en = s.en := rfl
@[simp] theorem State.emitRecord_tch (s : State) :
    s.emitRecord.tch = s.tch := rfl
@[simp] theorem State.emitRecord_thr (s : State) :
    s.emitRecord.thr = s.thr := rfl
@[simp] theorem State.emitRecord_budget (s : State) :
    s.emitRecord.budget = s.budget := rfl
@[simp] theorem State.emitRecord_out (s : State) :
    s.emitRecord.out = s.out ++ record s.en s.w := rfl
@[simp] theorem State.emitRecord_emitted (s : State) :
    s.emitRecord.emitted = some (record s.en s.w) := rfl
@[simp] theorem State.emitRecord_host (s : State) :
    s.emitRecord.host = s.host := rfl
@[simp] theorem State.emitRecord_ret (s : State) :
    s.emitRecord.ret = s.ret := rfl

/-! `signEdge` -/
@[simp] theorem State.signEdge_cc (s : State) (n : BitVec 7) (b : Byte) :
    (s.signEdge n b).cc = s.cc := rfl
@[simp] theorem State.signEdge_prev (s : State) (n : BitVec 7) (b : Byte) :
    (s.signEdge n b).prev = s.prev := rfl
@[simp] theorem State.signEdge_prevValid (s : State) (n : BitVec 7) (b : Byte) :
    (s.signEdge n b).prevValid = s.prevValid := rfl
@[simp] theorem State.signEdge_acc (s : State) (n : BitVec 7) (b : Byte) :
    (s.signEdge n b).acc = s.acc := rfl
@[simp] theorem State.signEdge_scanned (s : State) (n : BitVec 7) (b : Byte) :
    (s.signEdge n b).scanned = s.scanned := rfl
@[simp] theorem State.signEdge_sess (s : State) (n : BitVec 7) (b : Byte) :
    (s.signEdge n b).sess = s.sess := rfl
@[simp] theorem State.signEdge_result (s : State) (n : BitVec 7) (b : Byte) :
    (s.signEdge n b).result = s.result := rfl
@[simp] theorem State.signEdge_err (s : State) (n : BitVec 7) (b : Byte) :
    (s.signEdge n b).err = s.err := rfl
@[simp] theorem State.signEdge_mode (s : State) (n : BitVec 7) (b : Byte) :
    (s.signEdge n b).mode = s.mode := rfl
@[simp] theorem State.signEdge_en (s : State) (n : BitVec 7) (b : Byte) :
    (s.signEdge n b).en = s.en := rfl
@[simp] theorem State.signEdge_tch (s : State) (n : BitVec 7) (b : Byte) :
    (s.signEdge n b).tch = s.tch := rfl
@[simp] theorem State.signEdge_thr (s : State) (n : BitVec 7) (b : Byte) :
    (s.signEdge n b).thr = s.thr := rfl
@[simp] theorem State.signEdge_budget (s : State) (n : BitVec 7) (b : Byte) :
    (s.signEdge n b).budget = s.budget := rfl
@[simp] theorem State.signEdge_out (s : State) (n : BitVec 7) (b : Byte) :
    (s.signEdge n b).out = s.out := rfl
@[simp] theorem State.signEdge_emitted (s : State) (n : BitVec 7) (b : Byte) :
    (s.signEdge n b).emitted = s.emitted := rfl
@[simp] theorem State.signEdge_host (s : State) (n : BitVec 7) (b : Byte) :
    (s.signEdge n b).host = s.host := rfl
@[simp] theorem State.signEdge_ret (s : State) (n : BitVec 7) (b : Byte) :
    (s.signEdge n b).ret = s.ret := rfl

/-! `dataEdge` -/
@[simp] theorem State.dataEdge_cc (s : State) (n : BitVec 7) (b : Byte) :
    (s.dataEdge n b).cc = s.cc := rfl
@[simp] theorem State.dataEdge_prev (s : State) (n : BitVec 7) (b : Byte) :
    (s.dataEdge n b).prev = s.prev := rfl
@[simp] theorem State.dataEdge_prevValid (s : State) (n : BitVec 7) (b : Byte) :
    (s.dataEdge n b).prevValid = s.prevValid := rfl
@[simp] theorem State.dataEdge_acc (s : State) (n : BitVec 7) (b : Byte) :
    (s.dataEdge n b).acc = s.acc := rfl
@[simp] theorem State.dataEdge_scanned (s : State) (n : BitVec 7) (b : Byte) :
    (s.dataEdge n b).scanned = s.scanned := rfl
@[simp] theorem State.dataEdge_sess (s : State) (n : BitVec 7) (b : Byte) :
    (s.dataEdge n b).sess = s.sess := rfl
@[simp] theorem State.dataEdge_result (s : State) (n : BitVec 7) (b : Byte) :
    (s.dataEdge n b).result = s.result := rfl
@[simp] theorem State.dataEdge_err (s : State) (n : BitVec 7) (b : Byte) :
    (s.dataEdge n b).err = s.err := rfl
@[simp] theorem State.dataEdge_mode (s : State) (n : BitVec 7) (b : Byte) :
    (s.dataEdge n b).mode = s.mode := rfl
@[simp] theorem State.dataEdge_en (s : State) (n : BitVec 7) (b : Byte) :
    (s.dataEdge n b).en = s.en := rfl
@[simp] theorem State.dataEdge_tch (s : State) (n : BitVec 7) (b : Byte) :
    (s.dataEdge n b).tch = s.tch := rfl
@[simp] theorem State.dataEdge_thr (s : State) (n : BitVec 7) (b : Byte) :
    (s.dataEdge n b).thr = s.thr := rfl
@[simp] theorem State.dataEdge_budget (s : State) (n : BitVec 7) (b : Byte) :
    (s.dataEdge n b).budget = s.budget := rfl
@[simp] theorem State.dataEdge_out (s : State) (n : BitVec 7) (b : Byte) :
    (s.dataEdge n b).out = s.out := rfl
@[simp] theorem State.dataEdge_emitted (s : State) (n : BitVec 7) (b : Byte) :
    (s.dataEdge n b).emitted = s.emitted := rfl
@[simp] theorem State.dataEdge_host (s : State) (n : BitVec 7) (b : Byte) :
    (s.dataEdge n b).host = s.host := rfl
@[simp] theorem State.dataEdge_ret (s : State) (n : BitVec 7) (b : Byte) :
    (s.dataEdge n b).ret = s.ret := rfl

/-! `targetSign` -/
@[simp] theorem State.targetSign_w (s : State) (t : BitVec 5) (b : Byte) :
    (s.targetSign t b).w = s.w := rfl
@[simp] theorem State.targetSign_cc (s : State) (t : BitVec 5) (b : Byte) :
    (s.targetSign t b).cc = s.cc := rfl
@[simp] theorem State.targetSign_prev (s : State) (t : BitVec 5) (b : Byte) :
    (s.targetSign t b).prev = s.prev := rfl
@[simp] theorem State.targetSign_prevValid (s : State) (t : BitVec 5) (b : Byte) :
    (s.targetSign t b).prevValid = s.prevValid := rfl
@[simp] theorem State.targetSign_acc (s : State) (t : BitVec 5) (b : Byte) :
    (s.targetSign t b).acc = signLane b (targetLine t) s.acc := rfl
@[simp] theorem State.targetSign_scanned (s : State) (t : BitVec 5) (b : Byte) :
    (s.targetSign t b).scanned = s.scanned := rfl
@[simp] theorem State.targetSign_sess (s : State) (t : BitVec 5) (b : Byte) :
    (s.targetSign t b).sess = s.sess := rfl
@[simp] theorem State.targetSign_result (s : State) (t : BitVec 5) (b : Byte) :
    (s.targetSign t b).result = s.result := rfl
@[simp] theorem State.targetSign_err (s : State) (t : BitVec 5) (b : Byte) :
    (s.targetSign t b).err = s.err := rfl
@[simp] theorem State.targetSign_mode (s : State) (t : BitVec 5) (b : Byte) :
    (s.targetSign t b).mode = s.mode := rfl
@[simp] theorem State.targetSign_en (s : State) (t : BitVec 5) (b : Byte) :
    (s.targetSign t b).en = s.en := rfl
@[simp] theorem State.targetSign_tch (s : State) (t : BitVec 5) (b : Byte) :
    (s.targetSign t b).tch = s.tch := rfl
@[simp] theorem State.targetSign_thr (s : State) (t : BitVec 5) (b : Byte) :
    (s.targetSign t b).thr = s.thr := rfl
@[simp] theorem State.targetSign_budget (s : State) (t : BitVec 5) (b : Byte) :
    (s.targetSign t b).budget = s.budget := rfl
@[simp] theorem State.targetSign_out (s : State) (t : BitVec 5) (b : Byte) :
    (s.targetSign t b).out = s.out := rfl
@[simp] theorem State.targetSign_emitted (s : State) (t : BitVec 5) (b : Byte) :
    (s.targetSign t b).emitted = s.emitted := rfl
@[simp] theorem State.targetSign_host (s : State) (t : BitVec 5) (b : Byte) :
    (s.targetSign t b).host = s.host := rfl
@[simp] theorem State.targetSign_ret (s : State) (t : BitVec 5) (b : Byte) :
    (s.targetSign t b).ret = s.ret := rfl

/-! `targetData` -/
@[simp] theorem State.targetData_w (s : State) (t : BitVec 5) (n : BitVec 7) (b : Byte) :
    (s.targetData t n b).w = s.w := rfl
@[simp] theorem State.targetData_cc (s : State) (t : BitVec 5) (n : BitVec 7) (b : Byte) :
    (s.targetData t n b).cc = s.cc := rfl
@[simp] theorem State.targetData_prev (s : State) (t : BitVec 5) (n : BitVec 7) (b : Byte) :
    (s.targetData t n b).prev = s.prev := rfl
@[simp] theorem State.targetData_prevValid (s : State) (t : BitVec 5) (n : BitVec 7) (b : Byte) :
    (s.targetData t n b).prevValid = s.prevValid := rfl
@[simp] theorem State.targetData_acc (s : State) (t : BitVec 5) (n : BitVec 7) (b : Byte) :
    (s.targetData t n b).acc = s.acc ||| targetContrib t n b := rfl
@[simp] theorem State.targetData_scanned (s : State) (t : BitVec 5) (n : BitVec 7) (b : Byte) :
    (s.targetData t n b).scanned = s.scanned := rfl
@[simp] theorem State.targetData_sess (s : State) (t : BitVec 5) (n : BitVec 7) (b : Byte) :
    (s.targetData t n b).sess = s.sess := rfl
@[simp] theorem State.targetData_result (s : State) (t : BitVec 5) (n : BitVec 7) (b : Byte) :
    (s.targetData t n b).result = s.result := rfl
@[simp] theorem State.targetData_err (s : State) (t : BitVec 5) (n : BitVec 7) (b : Byte) :
    (s.targetData t n b).err = s.err := rfl
@[simp] theorem State.targetData_mode (s : State) (t : BitVec 5) (n : BitVec 7) (b : Byte) :
    (s.targetData t n b).mode = s.mode := rfl
@[simp] theorem State.targetData_en (s : State) (t : BitVec 5) (n : BitVec 7) (b : Byte) :
    (s.targetData t n b).en = s.en := rfl
@[simp] theorem State.targetData_tch (s : State) (t : BitVec 5) (n : BitVec 7) (b : Byte) :
    (s.targetData t n b).tch = s.tch := rfl
@[simp] theorem State.targetData_thr (s : State) (t : BitVec 5) (n : BitVec 7) (b : Byte) :
    (s.targetData t n b).thr = s.thr := rfl
@[simp] theorem State.targetData_budget (s : State) (t : BitVec 5) (n : BitVec 7) (b : Byte) :
    (s.targetData t n b).budget = s.budget := rfl
@[simp] theorem State.targetData_out (s : State) (t : BitVec 5) (n : BitVec 7) (b : Byte) :
    (s.targetData t n b).out = s.out := rfl
@[simp] theorem State.targetData_emitted (s : State) (t : BitVec 5) (n : BitVec 7) (b : Byte) :
    (s.targetData t n b).emitted = s.emitted := rfl
@[simp] theorem State.targetData_host (s : State) (t : BitVec 5) (n : BitVec 7) (b : Byte) :
    (s.targetData t n b).host = s.host := rfl
@[simp] theorem State.targetData_ret (s : State) (t : BitVec 5) (n : BitVec 7) (b : Byte) :
    (s.targetData t n b).ret = s.ret := rfl

/-! `clearSession` -/
@[simp] theorem State.clearSession_w (s : State) :
    s.clearSession.w = Vector.replicate 24 0 := rfl
@[simp] theorem State.clearSession_cc (s : State) :
    s.clearSession.cc = none := rfl
@[simp] theorem State.clearSession_prev (s : State) :
    s.clearSession.prev = 0x00 := rfl
@[simp] theorem State.clearSession_prevValid (s : State) :
    s.clearSession.prevValid = false := rfl
@[simp] theorem State.clearSession_acc (s : State) :
    s.clearSession.acc = 0 := rfl
@[simp] theorem State.clearSession_scanned (s : State) :
    s.clearSession.scanned = 0 := rfl
@[simp] theorem State.clearSession_sess (s : State) :
    s.clearSession.sess = .none := rfl
@[simp] theorem State.clearSession_result (s : State) :
    s.clearSession.result = .none := rfl
@[simp] theorem State.clearSession_err (s : State) :
    s.clearSession.err = .none := rfl
@[simp] theorem State.clearSession_mode (s : State) :
    s.clearSession.mode = s.mode := rfl
@[simp] theorem State.clearSession_en (s : State) :
    s.clearSession.en = s.en := rfl
@[simp] theorem State.clearSession_tch (s : State) :
    s.clearSession.tch = s.tch := rfl
@[simp] theorem State.clearSession_thr (s : State) :
    s.clearSession.thr = s.thr := rfl
@[simp] theorem State.clearSession_budget (s : State) :
    s.clearSession.budget = s.budget := rfl
@[simp] theorem State.clearSession_out (s : State) :
    s.clearSession.out = [] := rfl
@[simp] theorem State.clearSession_emitted (s : State) :
    s.clearSession.emitted = s.emitted := rfl
@[simp] theorem State.clearSession_host (s : State) :
    s.clearSession.host = s.host := rfl
@[simp] theorem State.clearSession_ret (s : State) :
    s.clearSession.ret = s.ret := rfl

/-! `openSession` -/
@[simp] theorem State.openSession_w (s : State) (m : Mode) (e : BitVec 24) (t : BitVec 5) (thr budget : BitVec 32) :
    (s.openSession m e t thr budget).w = s.w := rfl
@[simp] theorem State.openSession_cc (s : State) (m : Mode) (e : BitVec 24) (t : BitVec 5) (thr budget : BitVec 32) :
    (s.openSession m e t thr budget).cc = s.cc := rfl
@[simp] theorem State.openSession_prev (s : State) (m : Mode) (e : BitVec 24) (t : BitVec 5) (thr budget : BitVec 32) :
    (s.openSession m e t thr budget).prev = s.prev := rfl
@[simp] theorem State.openSession_prevValid (s : State) (m : Mode) (e : BitVec 24) (t : BitVec 5) (thr budget : BitVec 32) :
    (s.openSession m e t thr budget).prevValid = s.prevValid := rfl
@[simp] theorem State.openSession_acc (s : State) (m : Mode) (e : BitVec 24) (t : BitVec 5) (thr budget : BitVec 32) :
    (s.openSession m e t thr budget).acc = s.acc := rfl
@[simp] theorem State.openSession_scanned (s : State) (m : Mode) (e : BitVec 24) (t : BitVec 5) (thr budget : BitVec 32) :
    (s.openSession m e t thr budget).scanned = s.scanned := rfl
@[simp] theorem State.openSession_sess (s : State) (m : Mode) (e : BitVec 24) (t : BitVec 5) (thr budget : BitVec 32) :
    (s.openSession m e t thr budget).sess = .active := rfl
@[simp] theorem State.openSession_result (s : State) (m : Mode) (e : BitVec 24) (t : BitVec 5) (thr budget : BitVec 32) :
    (s.openSession m e t thr budget).result = s.result := rfl
@[simp] theorem State.openSession_err (s : State) (m : Mode) (e : BitVec 24) (t : BitVec 5) (thr budget : BitVec 32) :
    (s.openSession m e t thr budget).err = s.err := rfl
@[simp] theorem State.openSession_mode (s : State) (m : Mode) (e : BitVec 24) (t : BitVec 5) (thr budget : BitVec 32) :
    (s.openSession m e t thr budget).mode = m := rfl
@[simp] theorem State.openSession_en (s : State) (m : Mode) (e : BitVec 24) (t : BitVec 5) (thr budget : BitVec 32) :
    (s.openSession m e t thr budget).en = e := rfl
@[simp] theorem State.openSession_tch (s : State) (m : Mode) (e : BitVec 24) (t : BitVec 5) (thr budget : BitVec 32) :
    (s.openSession m e t thr budget).tch = t := rfl
@[simp] theorem State.openSession_thr (s : State) (m : Mode) (e : BitVec 24) (t : BitVec 5) (thr budget : BitVec 32) :
    (s.openSession m e t thr budget).thr = thr := rfl
@[simp] theorem State.openSession_budget (s : State) (m : Mode) (e : BitVec 24) (t : BitVec 5) (thr budget : BitVec 32) :
    (s.openSession m e t thr budget).budget = budget := rfl
@[simp] theorem State.openSession_out (s : State) (m : Mode) (e : BitVec 24) (t : BitVec 5) (thr budget : BitVec 32) :
    (s.openSession m e t thr budget).out = s.out := rfl
@[simp] theorem State.openSession_emitted (s : State) (m : Mode) (e : BitVec 24) (t : BitVec 5) (thr budget : BitVec 32) :
    (s.openSession m e t thr budget).emitted = s.emitted := rfl
@[simp] theorem State.openSession_host (s : State) (m : Mode) (e : BitVec 24) (t : BitVec 5) (thr budget : BitVec 32) :
    (s.openSession m e t thr budget).host = s.host := rfl
@[simp] theorem State.openSession_ret (s : State) (m : Mode) (e : BitVec 24) (t : BitVec 5) (thr budget : BitVec 32) :
    (s.openSession m e t thr budget).ret = s.ret := rfl

/-! `beginStep` -/
@[simp] theorem State.beginStep_w (s : State) :
    s.beginStep.w = s.w := rfl
@[simp] theorem State.beginStep_cc (s : State) :
    s.beginStep.cc = s.cc := rfl
@[simp] theorem State.beginStep_prev (s : State) :
    s.beginStep.prev = s.prev := rfl
@[simp] theorem State.beginStep_prevValid (s : State) :
    s.beginStep.prevValid = s.prevValid := rfl
@[simp] theorem State.beginStep_acc (s : State) :
    s.beginStep.acc = s.acc := rfl
@[simp] theorem State.beginStep_scanned (s : State) :
    s.beginStep.scanned = s.scanned := rfl
@[simp] theorem State.beginStep_sess (s : State) :
    s.beginStep.sess = s.sess := rfl
@[simp] theorem State.beginStep_result (s : State) :
    s.beginStep.result = s.result := rfl
@[simp] theorem State.beginStep_err (s : State) :
    s.beginStep.err = s.err := rfl
@[simp] theorem State.beginStep_mode (s : State) :
    s.beginStep.mode = s.mode := rfl
@[simp] theorem State.beginStep_en (s : State) :
    s.beginStep.en = s.en := rfl
@[simp] theorem State.beginStep_tch (s : State) :
    s.beginStep.tch = s.tch := rfl
@[simp] theorem State.beginStep_thr (s : State) :
    s.beginStep.thr = s.thr := rfl
@[simp] theorem State.beginStep_budget (s : State) :
    s.beginStep.budget = s.budget := rfl
@[simp] theorem State.beginStep_out (s : State) :
    s.beginStep.out = s.out := rfl
@[simp] theorem State.beginStep_emitted (s : State) :
    s.beginStep.emitted = none := rfl
@[simp] theorem State.beginStep_host (s : State) :
    s.beginStep.host = s.host.tail := rfl
@[simp] theorem State.beginStep_ret (s : State) :
    s.beginStep.ret = none := rfl

/-! `bitEdge`: what it leaves unchanged -/
@[simp] theorem State.bitEdge_cc (s : State) (n : BitVec 7) (b : Byte) : (s.bitEdge n b).cc = s.cc := by
  unfold State.bitEdge; split <;> [rfl; (split <;> rfl)]
@[simp] theorem State.bitEdge_prev (s : State) (n : BitVec 7) (b : Byte) : (s.bitEdge n b).prev = s.prev := by
  unfold State.bitEdge; split <;> [rfl; (split <;> rfl)]
@[simp] theorem State.bitEdge_prevValid (s : State) (n : BitVec 7) (b : Byte) : (s.bitEdge n b).prevValid = s.prevValid := by
  unfold State.bitEdge; split <;> [rfl; (split <;> rfl)]
@[simp] theorem State.bitEdge_acc (s : State) (n : BitVec 7) (b : Byte) : (s.bitEdge n b).acc = s.acc := by
  unfold State.bitEdge; split <;> [rfl; (split <;> rfl)]
@[simp] theorem State.bitEdge_scanned (s : State) (n : BitVec 7) (b : Byte) : (s.bitEdge n b).scanned = s.scanned := by
  unfold State.bitEdge; split <;> [rfl; (split <;> rfl)]
@[simp] theorem State.bitEdge_sess (s : State) (n : BitVec 7) (b : Byte) : (s.bitEdge n b).sess = s.sess := by
  unfold State.bitEdge; split <;> [rfl; (split <;> rfl)]
@[simp] theorem State.bitEdge_result (s : State) (n : BitVec 7) (b : Byte) : (s.bitEdge n b).result = s.result := by
  unfold State.bitEdge; split <;> [rfl; (split <;> rfl)]
@[simp] theorem State.bitEdge_err (s : State) (n : BitVec 7) (b : Byte) : (s.bitEdge n b).err = s.err := by
  unfold State.bitEdge; split <;> [rfl; (split <;> rfl)]
@[simp] theorem State.bitEdge_mode (s : State) (n : BitVec 7) (b : Byte) : (s.bitEdge n b).mode = s.mode := by
  unfold State.bitEdge; split <;> [rfl; (split <;> rfl)]
@[simp] theorem State.bitEdge_en (s : State) (n : BitVec 7) (b : Byte) : (s.bitEdge n b).en = s.en := by
  unfold State.bitEdge; split <;> [rfl; (split <;> rfl)]
@[simp] theorem State.bitEdge_tch (s : State) (n : BitVec 7) (b : Byte) : (s.bitEdge n b).tch = s.tch := by
  unfold State.bitEdge; split <;> [rfl; (split <;> rfl)]
@[simp] theorem State.bitEdge_thr (s : State) (n : BitVec 7) (b : Byte) : (s.bitEdge n b).thr = s.thr := by
  unfold State.bitEdge; split <;> [rfl; (split <;> rfl)]
@[simp] theorem State.bitEdge_budget (s : State) (n : BitVec 7) (b : Byte) : (s.bitEdge n b).budget = s.budget := by
  unfold State.bitEdge; split <;> [rfl; (split <;> rfl)]
@[simp] theorem State.bitEdge_out (s : State) (n : BitVec 7) (b : Byte) : (s.bitEdge n b).out = s.out := by
  unfold State.bitEdge; split <;> [rfl; (split <;> rfl)]
@[simp] theorem State.bitEdge_emitted (s : State) (n : BitVec 7) (b : Byte) : (s.bitEdge n b).emitted = s.emitted := by
  unfold State.bitEdge; split <;> [rfl; (split <;> rfl)]
@[simp] theorem State.bitEdge_host (s : State) (n : BitVec 7) (b : Byte) : (s.bitEdge n b).host = s.host := by
  unfold State.bitEdge; split <;> [rfl; (split <;> rfl)]
@[simp] theorem State.bitEdge_ret (s : State) (n : BitVec 7) (b : Byte) : (s.bitEdge n b).ret = s.ret := by
  unfold State.bitEdge; split <;> [rfl; (split <;> rfl)]

/-! `clkStep`: what it leaves unchanged -/
@[simp] theorem State.clkStep_prev (s : State) (n : BitVec 7) (b : Byte) : (s.clkStep n b).prev = s.prev := by
  unfold State.clkStep; split <;> simp
@[simp] theorem State.clkStep_prevValid (s : State) (n : BitVec 7) (b : Byte) : (s.clkStep n b).prevValid = s.prevValid := by
  unfold State.clkStep; split <;> simp
@[simp] theorem State.clkStep_acc (s : State) (n : BitVec 7) (b : Byte) : (s.clkStep n b).acc = s.acc := by
  unfold State.clkStep; split <;> simp
@[simp] theorem State.clkStep_scanned (s : State) (n : BitVec 7) (b : Byte) : (s.clkStep n b).scanned = s.scanned := by
  unfold State.clkStep; split <;> simp
@[simp] theorem State.clkStep_sess (s : State) (n : BitVec 7) (b : Byte) : (s.clkStep n b).sess = s.sess := by
  unfold State.clkStep; split <;> simp
@[simp] theorem State.clkStep_result (s : State) (n : BitVec 7) (b : Byte) : (s.clkStep n b).result = s.result := by
  unfold State.clkStep; split <;> simp
@[simp] theorem State.clkStep_err (s : State) (n : BitVec 7) (b : Byte) : (s.clkStep n b).err = s.err := by
  unfold State.clkStep; split <;> simp
@[simp] theorem State.clkStep_mode (s : State) (n : BitVec 7) (b : Byte) : (s.clkStep n b).mode = s.mode := by
  unfold State.clkStep; split <;> simp
@[simp] theorem State.clkStep_en (s : State) (n : BitVec 7) (b : Byte) : (s.clkStep n b).en = s.en := by
  unfold State.clkStep; split <;> simp
@[simp] theorem State.clkStep_tch (s : State) (n : BitVec 7) (b : Byte) : (s.clkStep n b).tch = s.tch := by
  unfold State.clkStep; split <;> simp
@[simp] theorem State.clkStep_thr (s : State) (n : BitVec 7) (b : Byte) : (s.clkStep n b).thr = s.thr := by
  unfold State.clkStep; split <;> simp
@[simp] theorem State.clkStep_budget (s : State) (n : BitVec 7) (b : Byte) : (s.clkStep n b).budget = s.budget := by
  unfold State.clkStep; split <;> simp
@[simp] theorem State.clkStep_host (s : State) (n : BitVec 7) (b : Byte) : (s.clkStep n b).host = s.host := by
  unfold State.clkStep; split <;> simp
@[simp] theorem State.clkStep_ret (s : State) (n : BitVec 7) (b : Byte) : (s.clkStep n b).ret = s.ret := by
  unfold State.clkStep; split <;> simp

/-! `fstep`: what it leaves unchanged -/
@[simp] theorem State.fstep_acc (s : State) (b : Byte) : (s.fstep b).acc = s.acc := by
  unfold State.fstep; split <;> simp
@[simp] theorem State.fstep_scanned (s : State) (b : Byte) : (s.fstep b).scanned = s.scanned := by
  unfold State.fstep; split <;> simp
@[simp] theorem State.fstep_sess (s : State) (b : Byte) : (s.fstep b).sess = s.sess := by
  unfold State.fstep; split <;> simp
@[simp] theorem State.fstep_result (s : State) (b : Byte) : (s.fstep b).result = s.result := by
  unfold State.fstep; split <;> simp
@[simp] theorem State.fstep_err (s : State) (b : Byte) : (s.fstep b).err = s.err := by
  unfold State.fstep; split <;> simp
@[simp] theorem State.fstep_mode (s : State) (b : Byte) : (s.fstep b).mode = s.mode := by
  unfold State.fstep; split <;> simp
@[simp] theorem State.fstep_en (s : State) (b : Byte) : (s.fstep b).en = s.en := by
  unfold State.fstep; split <;> simp
@[simp] theorem State.fstep_tch (s : State) (b : Byte) : (s.fstep b).tch = s.tch := by
  unfold State.fstep; split <;> simp
@[simp] theorem State.fstep_thr (s : State) (b : Byte) : (s.fstep b).thr = s.thr := by
  unfold State.fstep; split <;> simp
@[simp] theorem State.fstep_budget (s : State) (b : Byte) : (s.fstep b).budget = s.budget := by
  unfold State.fstep; split <;> simp
@[simp] theorem State.fstep_host (s : State) (b : Byte) : (s.fstep b).host = s.host := by
  unfold State.fstep; split <;> simp
@[simp] theorem State.fstep_ret (s : State) (b : Byte) : (s.fstep b).ret = s.ret := by
  unfold State.fstep; split <;> simp

/-! `targetBit`: what it leaves unchanged -/
@[simp] theorem State.targetBit_w (s : State) (n : BitVec 7) (b : Byte) : (s.targetBit n b).w = s.w := by
  unfold State.targetBit; split <;> [rfl; (split <;> rfl)]
@[simp] theorem State.targetBit_cc (s : State) (n : BitVec 7) (b : Byte) : (s.targetBit n b).cc = s.cc := by
  unfold State.targetBit; split <;> [rfl; (split <;> rfl)]
@[simp] theorem State.targetBit_prev (s : State) (n : BitVec 7) (b : Byte) : (s.targetBit n b).prev = s.prev := by
  unfold State.targetBit; split <;> [rfl; (split <;> rfl)]
@[simp] theorem State.targetBit_prevValid (s : State) (n : BitVec 7) (b : Byte) : (s.targetBit n b).prevValid = s.prevValid := by
  unfold State.targetBit; split <;> [rfl; (split <;> rfl)]
@[simp] theorem State.targetBit_scanned (s : State) (n : BitVec 7) (b : Byte) : (s.targetBit n b).scanned = s.scanned := by
  unfold State.targetBit; split <;> [rfl; (split <;> rfl)]
@[simp] theorem State.targetBit_sess (s : State) (n : BitVec 7) (b : Byte) : (s.targetBit n b).sess = s.sess := by
  unfold State.targetBit; split <;> [rfl; (split <;> rfl)]
@[simp] theorem State.targetBit_result (s : State) (n : BitVec 7) (b : Byte) : (s.targetBit n b).result = s.result := by
  unfold State.targetBit; split <;> [rfl; (split <;> rfl)]
@[simp] theorem State.targetBit_err (s : State) (n : BitVec 7) (b : Byte) : (s.targetBit n b).err = s.err := by
  unfold State.targetBit; split <;> [rfl; (split <;> rfl)]
@[simp] theorem State.targetBit_mode (s : State) (n : BitVec 7) (b : Byte) : (s.targetBit n b).mode = s.mode := by
  unfold State.targetBit; split <;> [rfl; (split <;> rfl)]
@[simp] theorem State.targetBit_en (s : State) (n : BitVec 7) (b : Byte) : (s.targetBit n b).en = s.en := by
  unfold State.targetBit; split <;> [rfl; (split <;> rfl)]
@[simp] theorem State.targetBit_tch (s : State) (n : BitVec 7) (b : Byte) : (s.targetBit n b).tch = s.tch := by
  unfold State.targetBit; split <;> [rfl; (split <;> rfl)]
@[simp] theorem State.targetBit_thr (s : State) (n : BitVec 7) (b : Byte) : (s.targetBit n b).thr = s.thr := by
  unfold State.targetBit; split <;> [rfl; (split <;> rfl)]
@[simp] theorem State.targetBit_budget (s : State) (n : BitVec 7) (b : Byte) : (s.targetBit n b).budget = s.budget := by
  unfold State.targetBit; split <;> [rfl; (split <;> rfl)]
@[simp] theorem State.targetBit_out (s : State) (n : BitVec 7) (b : Byte) : (s.targetBit n b).out = s.out := by
  unfold State.targetBit; split <;> [rfl; (split <;> rfl)]
@[simp] theorem State.targetBit_emitted (s : State) (n : BitVec 7) (b : Byte) : (s.targetBit n b).emitted = s.emitted := by
  unfold State.targetBit; split <;> [rfl; (split <;> rfl)]
@[simp] theorem State.targetBit_host (s : State) (n : BitVec 7) (b : Byte) : (s.targetBit n b).host = s.host := by
  unfold State.targetBit; split <;> [rfl; (split <;> rfl)]
@[simp] theorem State.targetBit_ret (s : State) (n : BitVec 7) (b : Byte) : (s.targetBit n b).ret = s.ret := by
  unfold State.targetBit; split <;> [rfl; (split <;> rfl)]

/-! `targetCompare`: what it leaves unchanged -/
@[simp] theorem State.targetCompare_w (s : State) : s.targetCompare.w = s.w := by
  unfold State.targetCompare; split <;> rfl
@[simp] theorem State.targetCompare_prev (s : State) : s.targetCompare.prev = s.prev := by
  unfold State.targetCompare; split <;> rfl
@[simp] theorem State.targetCompare_prevValid (s : State) : s.targetCompare.prevValid = s.prevValid := by
  unfold State.targetCompare; split <;> rfl
@[simp] theorem State.targetCompare_scanned (s : State) : s.targetCompare.scanned = s.scanned := by
  unfold State.targetCompare; split <;> rfl
@[simp] theorem State.targetCompare_err (s : State) : s.targetCompare.err = s.err := by
  unfold State.targetCompare; split <;> rfl
@[simp] theorem State.targetCompare_mode (s : State) : s.targetCompare.mode = s.mode := by
  unfold State.targetCompare; split <;> rfl
@[simp] theorem State.targetCompare_en (s : State) : s.targetCompare.en = s.en := by
  unfold State.targetCompare; split <;> rfl
@[simp] theorem State.targetCompare_tch (s : State) : s.targetCompare.tch = s.tch := by
  unfold State.targetCompare; split <;> rfl
@[simp] theorem State.targetCompare_thr (s : State) : s.targetCompare.thr = s.thr := by
  unfold State.targetCompare; split <;> rfl
@[simp] theorem State.targetCompare_budget (s : State) : s.targetCompare.budget = s.budget := by
  unfold State.targetCompare; split <;> rfl
@[simp] theorem State.targetCompare_out (s : State) : s.targetCompare.out = s.out := by
  unfold State.targetCompare; split <;> rfl
@[simp] theorem State.targetCompare_emitted (s : State) : s.targetCompare.emitted = s.emitted := by
  unfold State.targetCompare; split <;> rfl
@[simp] theorem State.targetCompare_host (s : State) : s.targetCompare.host = s.host := by
  unfold State.targetCompare; split <;> rfl
@[simp] theorem State.targetCompare_ret (s : State) : s.targetCompare.ret = s.ret := by
  unfold State.targetCompare; split <;> rfl

/-! `targetStep`: what it leaves unchanged -/
@[simp] theorem State.targetStep_w (s : State) (n : BitVec 7) (b : Byte) : (s.targetStep n b).w = s.w := by
  unfold State.targetStep; split <;> simp
@[simp] theorem State.targetStep_prev (s : State) (n : BitVec 7) (b : Byte) : (s.targetStep n b).prev = s.prev := by
  unfold State.targetStep; split <;> simp
@[simp] theorem State.targetStep_prevValid (s : State) (n : BitVec 7) (b : Byte) : (s.targetStep n b).prevValid = s.prevValid := by
  unfold State.targetStep; split <;> simp
@[simp] theorem State.targetStep_scanned (s : State) (n : BitVec 7) (b : Byte) : (s.targetStep n b).scanned = s.scanned := by
  unfold State.targetStep; split <;> simp
@[simp] theorem State.targetStep_err (s : State) (n : BitVec 7) (b : Byte) : (s.targetStep n b).err = s.err := by
  unfold State.targetStep; split <;> simp
@[simp] theorem State.targetStep_mode (s : State) (n : BitVec 7) (b : Byte) : (s.targetStep n b).mode = s.mode := by
  unfold State.targetStep; split <;> simp
@[simp] theorem State.targetStep_en (s : State) (n : BitVec 7) (b : Byte) : (s.targetStep n b).en = s.en := by
  unfold State.targetStep; split <;> simp
@[simp] theorem State.targetStep_tch (s : State) (n : BitVec 7) (b : Byte) : (s.targetStep n b).tch = s.tch := by
  unfold State.targetStep; split <;> simp
@[simp] theorem State.targetStep_thr (s : State) (n : BitVec 7) (b : Byte) : (s.targetStep n b).thr = s.thr := by
  unfold State.targetStep; split <;> simp
@[simp] theorem State.targetStep_budget (s : State) (n : BitVec 7) (b : Byte) : (s.targetStep n b).budget = s.budget := by
  unfold State.targetStep; split <;> simp
@[simp] theorem State.targetStep_out (s : State) (n : BitVec 7) (b : Byte) : (s.targetStep n b).out = s.out := by
  unfold State.targetStep; split <;> simp
@[simp] theorem State.targetStep_emitted (s : State) (n : BitVec 7) (b : Byte) : (s.targetStep n b).emitted = s.emitted := by
  unfold State.targetStep; split <;> simp
@[simp] theorem State.targetStep_host (s : State) (n : BitVec 7) (b : Byte) : (s.targetStep n b).host = s.host := by
  unfold State.targetStep; split <;> simp
@[simp] theorem State.targetStep_ret (s : State) (n : BitVec 7) (b : Byte) : (s.targetStep n b).ret = s.ret := by
  unfold State.targetStep; split <;> simp

/-! `checkBudget`: what it leaves unchanged -/
@[simp] theorem State.checkBudget_w (s : State) : s.checkBudget.w = s.w := by
  unfold State.checkBudget; split <;> rfl
@[simp] theorem State.checkBudget_cc (s : State) : s.checkBudget.cc = s.cc := by
  unfold State.checkBudget; split <;> rfl
@[simp] theorem State.checkBudget_prev (s : State) : s.checkBudget.prev = s.prev := by
  unfold State.checkBudget; split <;> rfl
@[simp] theorem State.checkBudget_prevValid (s : State) : s.checkBudget.prevValid = s.prevValid := by
  unfold State.checkBudget; split <;> rfl
@[simp] theorem State.checkBudget_acc (s : State) : s.checkBudget.acc = s.acc := by
  unfold State.checkBudget; split <;> rfl
@[simp] theorem State.checkBudget_scanned (s : State) : s.checkBudget.scanned = s.scanned := by
  unfold State.checkBudget; split <;> rfl
@[simp] theorem State.checkBudget_err (s : State) : s.checkBudget.err = s.err := by
  unfold State.checkBudget; split <;> rfl
@[simp] theorem State.checkBudget_mode (s : State) : s.checkBudget.mode = s.mode := by
  unfold State.checkBudget; split <;> rfl
@[simp] theorem State.checkBudget_en (s : State) : s.checkBudget.en = s.en := by
  unfold State.checkBudget; split <;> rfl
@[simp] theorem State.checkBudget_tch (s : State) : s.checkBudget.tch = s.tch := by
  unfold State.checkBudget; split <;> rfl
@[simp] theorem State.checkBudget_thr (s : State) : s.checkBudget.thr = s.thr := by
  unfold State.checkBudget; split <;> rfl
@[simp] theorem State.checkBudget_budget (s : State) : s.checkBudget.budget = s.budget := by
  unfold State.checkBudget; split <;> rfl
@[simp] theorem State.checkBudget_out (s : State) : s.checkBudget.out = s.out := by
  unfold State.checkBudget; split <;> rfl
@[simp] theorem State.checkBudget_emitted (s : State) : s.checkBudget.emitted = s.emitted := by
  unfold State.checkBudget; split <;> rfl
@[simp] theorem State.checkBudget_host (s : State) : s.checkBudget.host = s.host := by
  unfold State.checkBudget; split <;> rfl
@[simp] theorem State.checkBudget_ret (s : State) : s.checkBudget.ret = s.ret := by
  unfold State.checkBudget; split <;> rfl

/-! `checkZeroBudget`: what it leaves unchanged -/
@[simp] theorem State.checkZeroBudget_w (s : State) : s.checkZeroBudget.w = s.w := by
  unfold State.checkZeroBudget; split <;> rfl
@[simp] theorem State.checkZeroBudget_cc (s : State) : s.checkZeroBudget.cc = s.cc := by
  unfold State.checkZeroBudget; split <;> rfl
@[simp] theorem State.checkZeroBudget_prev (s : State) : s.checkZeroBudget.prev = s.prev := by
  unfold State.checkZeroBudget; split <;> rfl
@[simp] theorem State.checkZeroBudget_prevValid (s : State) : s.checkZeroBudget.prevValid = s.prevValid := by
  unfold State.checkZeroBudget; split <;> rfl
@[simp] theorem State.checkZeroBudget_acc (s : State) : s.checkZeroBudget.acc = s.acc := by
  unfold State.checkZeroBudget; split <;> rfl
@[simp] theorem State.checkZeroBudget_scanned (s : State) : s.checkZeroBudget.scanned = s.scanned := by
  unfold State.checkZeroBudget; split <;> rfl
@[simp] theorem State.checkZeroBudget_err (s : State) : s.checkZeroBudget.err = s.err := by
  unfold State.checkZeroBudget; split <;> rfl
@[simp] theorem State.checkZeroBudget_mode (s : State) : s.checkZeroBudget.mode = s.mode := by
  unfold State.checkZeroBudget; split <;> rfl
@[simp] theorem State.checkZeroBudget_en (s : State) : s.checkZeroBudget.en = s.en := by
  unfold State.checkZeroBudget; split <;> rfl
@[simp] theorem State.checkZeroBudget_tch (s : State) : s.checkZeroBudget.tch = s.tch := by
  unfold State.checkZeroBudget; split <;> rfl
@[simp] theorem State.checkZeroBudget_thr (s : State) : s.checkZeroBudget.thr = s.thr := by
  unfold State.checkZeroBudget; split <;> rfl
@[simp] theorem State.checkZeroBudget_budget (s : State) : s.checkZeroBudget.budget = s.budget := by
  unfold State.checkZeroBudget; split <;> rfl
@[simp] theorem State.checkZeroBudget_out (s : State) : s.checkZeroBudget.out = s.out := by
  unfold State.checkZeroBudget; split <;> rfl
@[simp] theorem State.checkZeroBudget_emitted (s : State) : s.checkZeroBudget.emitted = s.emitted := by
  unfold State.checkZeroBudget; split <;> rfl
@[simp] theorem State.checkZeroBudget_host (s : State) : s.checkZeroBudget.host = s.host := by
  unfold State.checkZeroBudget; split <;> rfl
@[simp] theorem State.checkZeroBudget_ret (s : State) : s.checkZeroBudget.ret = s.ret := by
  unfold State.checkZeroBudget; split <;> rfl

/-! `targetByte`: what it leaves unchanged -/
@[simp] theorem State.targetByte_w (s : State) (b : Byte) : (s.targetByte b).w = s.w := by
  unfold State.targetByte; split <;> simp
@[simp] theorem State.targetByte_err (s : State) (b : Byte) : (s.targetByte b).err = s.err := by
  unfold State.targetByte; split <;> simp
@[simp] theorem State.targetByte_mode (s : State) (b : Byte) : (s.targetByte b).mode = s.mode := by
  unfold State.targetByte; split <;> simp
@[simp] theorem State.targetByte_en (s : State) (b : Byte) : (s.targetByte b).en = s.en := by
  unfold State.targetByte; split <;> simp
@[simp] theorem State.targetByte_tch (s : State) (b : Byte) : (s.targetByte b).tch = s.tch := by
  unfold State.targetByte; split <;> simp
@[simp] theorem State.targetByte_thr (s : State) (b : Byte) : (s.targetByte b).thr = s.thr := by
  unfold State.targetByte; split <;> simp
@[simp] theorem State.targetByte_budget (s : State) (b : Byte) : (s.targetByte b).budget = s.budget := by
  unfold State.targetByte; split <;> simp
@[simp] theorem State.targetByte_out (s : State) (b : Byte) : (s.targetByte b).out = s.out := by
  unfold State.targetByte; split <;> simp
@[simp] theorem State.targetByte_emitted (s : State) (b : Byte) : (s.targetByte b).emitted = s.emitted := by
  unfold State.targetByte; split <;> simp
@[simp] theorem State.targetByte_host (s : State) (b : Byte) : (s.targetByte b).host = s.host := by
  unfold State.targetByte; split <;> simp
@[simp] theorem State.targetByte_ret (s : State) (b : Byte) : (s.targetByte b).ret = s.ret := by
  unfold State.targetByte; split <;> simp

/-! `tstep`: what it leaves unchanged -/
@[simp] theorem State.tstep_w (s : State) (b : Byte) : (s.tstep b).w = s.w := by
  unfold State.tstep; simp
@[simp] theorem State.tstep_err (s : State) (b : Byte) : (s.tstep b).err = s.err := by
  unfold State.tstep; simp
@[simp] theorem State.tstep_mode (s : State) (b : Byte) : (s.tstep b).mode = s.mode := by
  unfold State.tstep; simp
@[simp] theorem State.tstep_en (s : State) (b : Byte) : (s.tstep b).en = s.en := by
  unfold State.tstep; simp
@[simp] theorem State.tstep_tch (s : State) (b : Byte) : (s.tstep b).tch = s.tch := by
  unfold State.tstep; simp
@[simp] theorem State.tstep_thr (s : State) (b : Byte) : (s.tstep b).thr = s.thr := by
  unfold State.tstep; simp
@[simp] theorem State.tstep_budget (s : State) (b : Byte) : (s.tstep b).budget = s.budget := by
  unfold State.tstep; simp
@[simp] theorem State.tstep_out (s : State) (b : Byte) : (s.tstep b).out = s.out := by
  unfold State.tstep; simp
@[simp] theorem State.tstep_emitted (s : State) (b : Byte) : (s.tstep b).emitted = s.emitted := by
  unfold State.tstep; simp
@[simp] theorem State.tstep_host (s : State) (b : Byte) : (s.tstep b).host = s.host := by
  unfold State.tstep; simp
@[simp] theorem State.tstep_ret (s : State) (b : Byte) : (s.tstep b).ret = s.ret := by
  unfold State.tstep; simp

end Sys2Proof.Machine
end

