-- ==== Sys2Proof/Laws/Ops.lean ====
section
/-! SUPPORT. One lemma for each shared operation of Machine/Ops.lean: all it can do. -/

namespace Sys2Proof.Machine

@[simp] theorem readW_updateGroup (s : State) (g : Nat) (f : Nat → Word → Word) (i : Fin 24) :
    (s.updateGroup g f).readW i = if i.val / 6 = g then f (i.val % 6) (s.readW i) else s.readW i := by
  simp [State.readW, State.updateGroup]

theorem readW_eq_of_w {s t : State} (h : s.w = t.w) (i : Fin 24) : s.readW i = t.readW i := by
  simp [State.readW, h]

theorem readW_zero_of_w {s : State} (h : s.w = Vector.replicate 24 0) (i : Fin 24) : s.readW i = 0 := by
  simp [State.readW, h]

/-- Two register files with the same words are the same. -/
theorem w_ext {s t : State} (h : ∀ i : Fin 24, s.readW i = t.readW i) : s.w = t.w := by
  apply Vector.ext
  intro i hi
  exact h ⟨i, hi⟩

/-- SIGN, word by word (41_word_assembler.md R113). -/
theorem readW_signEdge (s : State) (n : BitVec 7) (b : Byte) (i : Fin 24) :
    (s.signEdge n b).readW i =
      if i.val / 6 = slotGroup n then signLane b (i.val % 6) (s.readW i) else s.readW i :=
  readW_updateGroup ..

/-- DATA, word by word (41_word_assembler.md R114). -/
theorem readW_dataEdge (s : State) (n : BitVec 7) (b : Byte) (i : Fin 24) :
    (s.dataEdge n b).readW i =
      if i.val / 6 = slotGroup n then dataLane b (dataIndex n) (i.val % 6) (s.readW i) else s.readW i :=
  readW_updateGroup ..

/-- The bit operation of an edge, word by word (41_word_assembler.md R115). -/
theorem readW_bitEdge (s : State) (n : BitVec 7) (b : Byte) (i : Fin 24) :
    (s.bitEdge n b).readW i =
      if slotPos n < 8 ∨ i.val / 6 ≠ slotGroup n then s.readW i
      else if slotPos n = 8 then signLane b (i.val % 6) (s.readW i)
      else dataLane b (dataIndex n) (i.val % 6) (s.readW i) := by
  unfold State.bitEdge
  split
  · simp [*]
  · split <;> simp [readW_signEdge, readW_dataEdge, *]

/-- CLK_STEP: the frame completes, or the counter goes up (41_word_assembler.md R115). -/
theorem clkStep_cases (s : State) (n : BitVec 7) (b : Byte) :
    (n = 127 ∧ s.clkStep n b = (s.bitEdge n b).emitRecord.endFrame) ∨
    (n ≠ 127 ∧ s.clkStep n b = (s.bitEdge n b).countEdge n) := by
  unfold State.clkStep
  split
  · exact .inl ⟨‹_›, rfl⟩
  · exact .inr ⟨‹_›, rfl⟩

/-- SCAN: which event a byte is (40_edge_scanner.md R104). -/
theorem scanPair_cases (v : Bool) (cc : Option (BitVec 7)) (p b : Byte) :
    (v = false ∧ scanPair v cc p b = .first) ∨
    (v = true ∧ cc = none ∧ isDrdyFall p b = true ∧ scanPair v cc p b = .drdyFall) ∨
    (v = true ∧ cc = none ∧ isDrdyFall p b = false ∧ scanPair v cc p b = .noEdge) ∨
    (v = true ∧ ∃ n, cc = some n ∧ isClkEdge p b = true ∧ scanPair v cc p b = .clkEdge n) ∨
    (v = true ∧ ∃ n, cc = some n ∧ isClkEdge p b = false ∧ scanPair v cc p b = .noEdge) := by
  cases v <;> cases cc <;> simp [scanPair]

/-- FSTEP: the byte is shifted in after nothing, a frame start, or a CLK edge of the open frame (43_batch_decoder.md
R137). -/
theorem fstep_cases (s : State) (b : Byte) :
    s.fstep b = s.shiftIn b ∨
    (s.prevValid = true ∧ s.cc = none ∧ isDrdyFall s.prev b = true ∧ s.fstep b = s.frameStart.shiftIn b) ∨
    (s.prevValid = true ∧ isClkEdge s.prev b = true ∧
      ∃ n, s.cc = some n ∧ s.fstep b = (s.clkStep n b).shiftIn b) := by
  unfold State.fstep State.scan
  rcases scanPair_cases s.prevValid s.cc s.prev b with ⟨-, h⟩ | ⟨hv, hc, he, h⟩ | ⟨-, -, -, h⟩ | ⟨hv, n, hc, he, h⟩ |
    ⟨-, n, -, -, h⟩ <;> rw [h] <;> simp_all

/-- TCMP: a trigger, or the scanner waits for the next frame (45_threshold_prescanner.md R160). -/
theorem targetCompare_cases (s : State) :
    (s.reaches = true ∧ s.targetCompare = { s with result := .triggered, sess := .done, cc := none }) ∨
    (s.reaches = false ∧ s.targetCompare = { s with acc := 0, cc := none }) := by
  unfold State.targetCompare
  cases h : s.reaches <;> simp

/-- The CLK branch of TSTEP: the word completes, or the counter goes up (45_threshold_prescanner.md R161). -/
theorem targetStep_cases (s : State) (n : BitVec 7) (b : Byte) :
    (n.toNat = clockSkip s.tch + 23 ∧ s.targetStep n b = (s.targetBit n b).targetCompare) ∨
    (n.toNat ≠ clockSkip s.tch + 23 ∧ s.targetStep n b = { s.targetBit n b with cc := targetCount s.tch n b }) := by
  unfold State.targetStep
  split
  · exact .inl ⟨‹_›, rfl⟩
  · exact .inr ⟨‹_›, rfl⟩

/-- The bit operation of a THRESH edge (45_threshold_prescanner.md R161). -/
theorem targetBit_cases (s : State) (n : BitVec 7) (b : Byte) :
    (n.toNat < clockSkip s.tch ∧ s.targetBit n b = s) ∨
    (n.toNat = clockSkip s.tch ∧ s.targetBit n b = s.targetSign s.tch b) ∨
    (clockSkip s.tch < n.toNat ∧ s.targetBit n b = s.targetData s.tch n b) := by
  unfold State.targetBit
  split
  · exact .inl ⟨‹_›, rfl⟩
  · split
    · exact .inr (.inl ⟨‹_›, rfl⟩)
    · exact .inr (.inr ⟨by omega, rfl⟩)

/-- TSTEP before its budget check: the byte is counted and shifted in, around nothing, a frame start, or a CLK edge
(45_threshold_prescanner.md R161). -/
theorem targetByte_cases (s : State) (b : Byte) :
    s.targetByte b = { s with scanned := s.scannedNext }.shiftIn b ∨
    (s.prevValid = true ∧ s.cc = none ∧ isDrdyFall s.prev b = true ∧
      s.targetByte b = { s with scanned := s.scannedNext }.frameStart.shiftIn b) ∨
    (s.prevValid = true ∧ isClkEdge s.prev b = true ∧
      ∃ n, s.cc = some n ∧ s.targetByte b = ({ s with scanned := s.scannedNext }.targetStep n b).shiftIn b) := by
  unfold State.targetByte State.scan
  rcases scanPair_cases s.prevValid s.cc s.prev b with ⟨-, h⟩ | ⟨hv, hc, he, h⟩ | ⟨-, -, -, h⟩ | ⟨hv, n, hc, he, h⟩ |
    ⟨-, n, -, -, h⟩ <;> rw [h] <;> simp_all

/-- The budget check: the session ends, or nothing happens (45_threshold_prescanner.md R162). -/
theorem checkBudget_cases (s : State) :
    (s.sess = .active ∧ s.scanned = s.budget ∧ s.checkBudget = { s with result := .notTriggered, sess := .done }) ∨
    (¬ (s.sess = .active ∧ s.scanned = s.budget) ∧ s.checkBudget = s) := by
  unfold State.checkBudget
  split
  · next h => exact .inl ⟨h.1, h.2, rfl⟩
  · next h => exact .inr ⟨h, rfl⟩

/-- The mode START latches (46_session_control.md R174). -/
theorem acceptedMode_cases (m : BitVec 2) (e : BitVec 24) (t : BitVec 5) :
    (valid m e t = false ∧ acceptedMode m e t = none) ∨
    (m = 0 ∧ e ≠ 0 ∧ valid m e t = true ∧ acceptedMode m e t = some .batch) ∨
    (m = 1 ∧ e ≠ 0 ∧ valid m e t = true ∧ acceptedMode m e t = some .stream) ∨
    (m = 2 ∧ t.toNat ≤ 23 ∧ valid m e t = true ∧ acceptedMode m e t = some .thresh) := by
  unfold acceptedMode
  cases h : valid m e t
  · exact .inl ⟨rfl, rfl⟩
  · refine .inr ?_
    simp only [valid, Bool.or_eq_true, Bool.and_eq_true, decide_eq_true_eq] at h
    rcases h with (⟨rfl, h⟩ | ⟨rfl, h⟩) | ⟨rfl, h⟩
    · exact .inl ⟨rfl, h, rfl, rfl⟩
    · exact .inr (.inl ⟨rfl, h, rfl, rfl⟩)
    · exact .inr (.inr ⟨rfl, h, rfl, rfl⟩)

/-- A mode's code is the `cfg_mode` it is decoded from (30_encoding.md R80). -/
theorem mode_ofCode_code (m : Mode) : Mode.ofCode m.code = some m := by
  cases m <;> rfl

/-- A run of instructions is the run of its first part and then of its second (20_memory.md R61). -/
theorem run_append (a b : List Instr) (s : State) :
    run (a ++ b) s = (match run a s with
      | .next t => run b t
      | .fault r => .fault r
      | .refused r => .refused r) := by
  induction a generalizing s with
  | nil => rfl
  | cons i a ih =>
    rw [List.cons_append, run, run]
    cases exec i s with
    | next t => exact ih t
    | fault r => rfl
    | refused r => rfl

/-- In an active BATCH or STREAM session a run of PUSH is FSTEP of each byte (46_session_control.md R175). -/
theorem run_pushN_full (bytes : List Byte) (s : State) (ha : s.sess = .active) (hm : s.mode ≠ .thresh) :
    run (pushN bytes) s = .next (s.feed bytes) := by
  induction bytes generalizing s with
  | nil => rfl
  | cons b bytes ih =>
    have h : exec (.push b) s = .next (s.fstep b) := by
      simp only [exec, execPush, ha, if_true]
      cases h : s.mode <;> simp_all
    simp only [pushN, List.map_cons, run, h]
    exact ih _ (by simpa using ha) (by simpa using hm)

end Sys2Proof.Machine
end

