-- ==== Sys2Proof/Laws/PerInstr.lean ====
section
/-! SUPPORT. A statement made of every instruction, one lemma per constructor: the encoder's word lies in the row that
spec/opcode_table.json has for the instruction. -/

namespace Sys2Proof.Laws

open Sys2Proof.Machine

/-- The word of a code, as the table numbers its bits, and the row's mask and match: `word &&& mask = match`. -/
def inRow (c : Code) (mask pattern : Nat) : Prop :=
  match c with
  | .op p => p.opWord.toNat &&& mask = pattern
  | .pair _ p => p.toNat &&& mask = pattern
  | .slot n _ => n.toNat &&& mask = pattern
  | .slotDone n => n.toNat &&& mask = pattern
  | .tslot _ _ _ => False
  | .tslotDone _ _ => False
  | .fn _ => False

/-- The encoding of a well-formed instruction lies in its row. Where the table gives no mask (TSLOT, FN) the row's
condition stands instead (30_encoding.md R75, 42_sample_emitter.md R125). -/
def EncodedInRow.Statement (i : Instr) : Prop :=
  WellFormed i → match i with
    | .reset => inRow (encode i) 0x8 0x8
    | .nop => inRow (encode i) 0xF 0x0
    | .start _ _ _ _ _ => inRow (encode i) 0xF 0x1
    | .push _ => inRow (encode i) 0xF 0x2
    | .endInput => inRow (encode i) 0xF 0x3
    | .abort => inRow (encode i) 0xF 0x4
    | .reserved5 => inRow (encode i) 0xF 0x5
    | .reserved6 => inRow (encode i) 0xF 0x6
    | .reserved7 => inRow (encode i) 0xF 0x7
    | .drdyFall _ _ => inRow (encode i) 0x8080 0x8000
    | .clkEdge _ _ => inRow (encode i) 0x4040 0x4000
    | .noEdge p c => encode i = .pair (isDrdyFall p c) (p ++ c)
    | .hdr _ _ => inRow (encode i) 0x18 0x00
    | .sign _ _ => inRow (encode i) 0x1F 0x08
    | .dataLo _ _ => inRow (encode i) 0x18 0x08
    | .dataHi _ _ => inRow (encode i) 0x10 0x10
    | .tskip t _ cur => ∃ n, encode i = .tslot t n cur ∧ n.toNat < clockSkip t
    | .tsign t cur => ∃ n, encode i = .tslot t n cur ∧ n.toNat = clockSkip t
    | .tdata t _ cur => ∃ n, encode i = .tslot t n cur ∧ clockSkip t < n.toNat ∧ n.toNat ≤ clockSkip t + 23
    | .tcmp t => ∃ n, encode i = .tslotDone t n ∧ n.toNat = clockSkip t + 23
    | .remap c => ∃ n, encode i = .fn n ∧ n.toNat = c.val
    | .emit => inRow (encode i) 0x7F 0x7F

theorem EncodedInRow.reset : EncodedInRow.Statement .reset := fun _ => rfl

theorem EncodedInRow.nop : EncodedInRow.Statement .nop := fun _ => rfl

theorem EncodedInRow.start (m : BitVec 2) (e : BitVec 24) (t : BitVec 5) (thr budget : BitVec 32) :
    EncodedInRow.Statement (.start m e t thr budget) := fun _ => by
  show (BitVec.ofBool false ++ (1 : BitVec 3)).toNat &&& 0xF = 0x1
  decide

theorem EncodedInRow.push (din : Byte) : EncodedInRow.Statement (.push din) := fun _ => by
  show (BitVec.ofBool false ++ (2 : BitVec 3)).toNat &&& 0xF = 0x2
  decide

theorem EncodedInRow.endInput : EncodedInRow.Statement .endInput := fun _ => rfl

theorem EncodedInRow.abort : EncodedInRow.Statement .abort := fun _ => rfl

theorem EncodedInRow.reserved5 : EncodedInRow.Statement .reserved5 := fun _ => rfl

theorem EncodedInRow.reserved6 : EncodedInRow.Statement .reserved6 := fun _ => rfl

theorem EncodedInRow.reserved7 : EncodedInRow.Statement .reserved7 := fun _ => rfl

theorem EncodedInRow.drdyFall (p c : Byte) : EncodedInRow.Statement (.drdyFall p c) := fun h =>
  congrArg BitVec.toNat ((pair_drdy_iff p c).2 h)

theorem EncodedInRow.clkEdge (p c : Byte) : EncodedInRow.Statement (.clkEdge p c) := fun h =>
  congrArg BitVec.toNat ((pair_clk_iff p c).2 h)

theorem EncodedInRow.noEdge (p c : Byte) : EncodedInRow.Statement (.noEdge p c) := fun _ => rfl

theorem EncodedInRow.hdr (n : BitVec 7) (cur : Byte) : EncodedInRow.Statement (.hdr n cur) := fun h =>
  congrArg BitVec.toNat ((slot_hdr_iff n).2 (of_decide_eq_true h))

theorem EncodedInRow.sign (n : BitVec 7) (cur : Byte) : EncodedInRow.Statement (.sign n cur) := fun h =>
  congrArg BitVec.toNat ((slot_sign_iff n).2 (of_decide_eq_true h))

theorem EncodedInRow.dataLo (n : BitVec 7) (cur : Byte) : EncodedInRow.Statement (.dataLo n cur) := fun h =>
  congrArg BitVec.toNat ((slot_dataLo_iff n).2 (by
    simp only [WellFormed, Instr.wellFormed, Bool.and_eq_true, decide_eq_true_eq] at h
    omega))

theorem EncodedInRow.dataHi (n : BitVec 7) (cur : Byte) : EncodedInRow.Statement (.dataHi n cur) := fun h => by
  have key : ∀ n : BitVec 7, 16 ≤ slotPos n → n.toNat &&& 0x10 = 0x10 := by decide
  exact key n (of_decide_eq_true h)

theorem EncodedInRow.tskip (t : BitVec 5) (n : BitVec 7) (cur : Byte) : EncodedInRow.Statement (.tskip t n cur) :=
  fun h => ⟨n, rfl, by simp only [WellFormed, Instr.wellFormed, Bool.and_eq_true, decide_eq_true_eq] at h; exact h.2⟩

theorem EncodedInRow.tsign (t : BitVec 5) (cur : Byte) : EncodedInRow.Statement (.tsign t cur) := fun _ =>
  ⟨BitVec.ofNat 7 (clockSkip t), rfl, by simp [clockSkip, targetGroup]; omega⟩

theorem EncodedInRow.tdata (t : BitVec 5) (n : BitVec 7) (cur : Byte) : EncodedInRow.Statement (.tdata t n cur) :=
  fun h => ⟨n, rfl, by simp only [WellFormed, Instr.wellFormed, Bool.and_eq_true, decide_eq_true_eq] at h; exact ⟨h.1.2, h.2⟩⟩

theorem EncodedInRow.tcmp (t : BitVec 5) : EncodedInRow.Statement (.tcmp t) := fun _ =>
  ⟨BitVec.ofNat 7 (clockSkip t + 23), rfl, by simp [clockSkip, targetGroup]; omega⟩

theorem EncodedInRow.remap (i : Fin 24) : EncodedInRow.Statement (.remap i) := fun _ =>
  ⟨BitVec.ofNat 5 i, rfl, by simp; omega⟩

theorem EncodedInRow.emit : EncodedInRow.Statement .emit := fun _ => rfl

end Sys2Proof.Laws
end

