-- ==== Sys2Proof/Laws/Step.lean ====
section
/-! SUPPORT. What a step can do: one lemma for each meaning that chooses, and one for `step` itself, so that no proof
unfolds them. -/

namespace Sys2Proof.Machine

/-! ### What SCAN answers, by the state (40_edge_scanner.md R104) -/

theorem scanPair_first (v : Bool) (cc : Option (BitVec 7)) (p b : Byte) (hv : v = false) :
    scanPair v cc p b = .first := by
  rw [hv]; rfl

theorem scanPair_drdyFall (v : Bool) (cc : Option (BitVec 7)) (p b : Byte) (hv : v = true) (hc : cc = none)
    (he : isDrdyFall p b = true) : scanPair v cc p b = .drdyFall := by
  rw [hv, hc]; simp [scanPair, he]

theorem scanPair_no_drdyFall (v : Bool) (cc : Option (BitVec 7)) (p b : Byte) (hv : v = true) (hc : cc = none)
    (he : isDrdyFall p b = false) : scanPair v cc p b = .noEdge := by
  rw [hv, hc]; simp [scanPair, he]

theorem scanPair_clkEdge (v : Bool) (cc : Option (BitVec 7)) (p b : Byte) (n : BitVec 7) (hv : v = true)
    (hc : cc = some n) (he : isClkEdge p b = true) : scanPair v cc p b = .clkEdge n := by
  rw [hv, hc]; simp [scanPair, he]

theorem scanPair_no_clkEdge (v : Bool) (cc : Option (BitVec 7)) (p b : Byte) (n : BitVec 7) (hv : v = true)
    (hc : cc = some n) (he : isClkEdge p b = false) : scanPair v cc p b = .noEdge := by
  rw [hv, hc]; simp [scanPair, he]

/-! ### Counters -/

theorem clockSkip_le (t : BitVec 5) : clockSkip t ≤ 104 := by
  unfold clockSkip targetGroup; omega

/-- The edge number goes up without wrapping, but for the last edge of a frame. -/
theorem toNat_count_succ (n : BitVec 7) (h : n ≠ 127) : (n + 1).toNat = n.toNat + 1 := by
  revert n; decide

/-- While a budget is unused `scanned` is below 2^32-1 and goes up by one (45_threshold_prescanner.md R161). -/
theorem scannedNext_of_lt (s : State) (h : s.scanned.toNat < s.budget.toNat) :
    s.scannedNext = s.scanned + 1 ∧ (s.scanned + 1).toNat = s.scanned.toNat + 1 := by
  have := s.budget.isLt
  constructor
  · unfold State.scannedNext
    rw [if_neg]
    intro hs
    rw [hs] at h
    simp at h
    omega
  · rw [BitVec.toNat_add]; simp; omega

/-! ### PUSH, by the mode (46_session_control.md R175) -/

theorem execPush_full (s : State) (b : Byte) (ha : s.sess = .active) (hm : s.mode ≠ .thresh) :
    exec (.push b) s = .next (s.fstep b) := by
  simp only [exec, execPush, ha, if_true]
  cases h : s.mode <;> simp_all

theorem execPush_thresh (s : State) (b : Byte) (ha : s.sess = .active) (hm : s.mode = .thresh) :
    exec (.push b) s = .next (s.tstep b) := by
  simp only [exec, execPush, ha, if_true, hm]

/-- FSTEP and TSTEP end with the byte as the previous one (43_batch_decoder.md R137, 45_threshold_prescanner.md R161). -/
theorem fstep_prev (s : State) (b : Byte) : (s.fstep b).prev = b ∧ (s.fstep b).prevValid = true := by
  rcases fstep_cases s b with h | ⟨-, -, -, h⟩ | ⟨-, -, n, -, h⟩ <;> rw [h] <;> exact ⟨rfl, rfl⟩

theorem tstep_prev (s : State) (b : Byte) : (s.tstep b).prev = b ∧ (s.tstep b).prevValid = true := by
  have hb : (s.targetByte b).prev = b ∧ (s.targetByte b).prevValid = true := by
    rcases targetByte_cases s b with h | ⟨-, -, -, h⟩ | ⟨-, -, n, -, h⟩ <;> rw [h] <;> exact ⟨rfl, rfl⟩
  unfold State.tstep
  rcases checkBudget_cases (s.targetByte b) with ⟨-, -, h⟩ | ⟨-, h⟩ <;> rw [h] <;> exact hb

/-- PUSH in an active session, whatever the mode (46_session_control.md R175). -/
theorem execPush_active (s : State) (b : Byte) (ha : s.sess = .active) :
    ∃ t, exec (.push b) s = .next t ∧ t.prev = b ∧ t.prevValid = true ∧ t.mode = s.mode ∧
      (s.mode ≠ .thresh → t.sess = .active) := by
  by_cases hm : s.mode = .thresh
  · exact ⟨_, execPush_thresh s b ha hm, (tstep_prev s b).1, (tstep_prev s b).2, by simp, fun h => absurd hm h⟩
  · exact ⟨_, execPush_full s b ha hm, (fstep_prev s b).1, (fstep_prev s b).2, by simp, fun _ => by simpa using ha⟩

/-- PUSH outside an active session: the byte is lost (46_session_control.md R178). -/
theorem execPush_inactive (s : State) (b : Byte) (ha : s.sess ≠ .active) : exec (.push b) s = .next s := if_neg ha

/-! ### START, and the step -/

/-- START is rejected, opens a session, or opens and ends one (46_session_control.md R173). -/
theorem execStart_cases (m : BitVec 2) (e : BitVec 24) (c : BitVec 5) (thr b : BitVec 32) (s t : State)
    (h : exec (.start m e c thr b) s = .next t) :
    (acceptedMode m e c = none ∧ t = s.clearSession.raise .malformedConfiguration) ∨
    (∃ md, acceptedMode m e c = some md ∧ t = s.clearSession.openSession md e c thr b ∧ (md = .thresh → b ≠ 0)) ∨
    (b = 0 ∧ acceptedMode m e c = some .thresh ∧
      t = { s.clearSession.openSession .thresh e c thr b with result := .notTriggered, sess := .done }) := by
  simp only [exec, execStart] at h
  cases hm : acceptedMode m e c with
  | none => rw [hm] at h; injection h with h; exact .inl ⟨rfl, h.symm⟩
  | some md =>
    rw [hm] at h
    injection h with h
    subst h
    right
    unfold State.checkZeroBudget
    by_cases hc : md = .thresh ∧ b = 0
    · obtain ⟨rfl, rfl⟩ := hc
      exact .inr ⟨rfl, rfl, if_pos ⟨rfl, rfl⟩⟩
    · exact .inl ⟨md, rfl, if_neg hc, fun h hb => hc ⟨h, hb⟩⟩

/-- A step that gives a next state ran one of the six host operations (30_encoding.md R79). -/
theorem step_runs_host_op (s t : State) (h : step s = .next t) :
    ∃ i, exec i s.beginStep = .next t ∧
      (i = .reset ∨ i = .nop ∨ (∃ m e c thr b, i = .start m e c thr b) ∨ (∃ b, i = .push b) ∨ i = .endInput ∨
        i = .abort) := by
  refine ⟨s.fetch, h, ?_⟩
  have hne : s.fetch ≠ .reserved5 ∧ s.fetch ≠ .reserved6 ∧ s.fetch ≠ .reserved7 := by
    refine ⟨?_, ?_, ?_⟩ <;> intro e <;> (unfold step at h; rw [e] at h; cases h)
  unfold State.fetch decodeOp at *
  repeat' split
  all_goals simp_all

/-- All that a step can do: reset, nothing, a START, a byte in one of the two decoders, END in one of them, ABORT. -/
theorem step_cases (s t : State) (h : step s = .next t) :
    t = { State.reset with out := s.out, host := s.host.tail } ∨ t = s.beginStep ∨
    (∃ m e c thr b, exec (.start m e c thr b) s.beginStep = .next t) ∨
    (∃ b, s.sess = .active ∧ s.mode ≠ .thresh ∧ t = s.beginStep.fstep b) ∨
    (∃ b, s.sess = .active ∧ s.mode = .thresh ∧ t = s.beginStep.tstep b) ∨
    (s.sess = .active ∧ s.mode ≠ .thresh ∧ t = { s.beginStep.clearDecoder with sess := .done }) ∨
    (s.sess = .active ∧ s.mode = .thresh ∧
      t = { s.beginStep.clearDecoder with acc := 0, result := .notTriggered, sess := .done }) ∨
    (s.sess = .active ∧
      t = { { s.beginStep.clearDecoder with acc := 0 }.raise .transportFailure with sess := .failed }) := by
  obtain ⟨i, h, rfl | rfl | ⟨m, e, c, thr, b, rfl⟩ | ⟨b, rfl⟩ | rfl | rfl⟩ := step_runs_host_op s t h
  · injection h with h; exact .inl h.symm
  · injection h with h; exact .inr (.inl h.symm)
  · exact .inr (.inr (.inl ⟨_, _, _, _, _, h⟩))
  · by_cases ha : s.sess = .active
    · by_cases hm : s.mode = .thresh
      · rw [execPush_thresh _ b (by simpa) (by simpa)] at h
        injection h with h
        exact .inr (.inr (.inr (.inr (.inl ⟨b, ha, hm, h.symm⟩))))
      · rw [execPush_full _ b (by simpa) (by simpa)] at h
        injection h with h
        exact .inr (.inr (.inr (.inl ⟨b, ha, hm, h.symm⟩)))
    · simp only [exec, execPush] at h
      rw [if_neg (by simpa)] at h
      injection h with h
      exact .inr (.inl h.symm)
  · simp only [exec, execEnd] at h
    by_cases ha : s.sess = .active
    · rw [if_pos (by simpa)] at h
      by_cases hm : s.mode = .thresh
      · rw [if_pos (by simpa)] at h
        injection h with h
        simp [ha, hm, ← h]
      · rw [if_neg (by simpa)] at h
        injection h with h
        simp [ha, hm, ← h]
    · rw [if_neg (by simpa)] at h
      injection h with h
      exact .inr (.inl h.symm)
  · simp only [exec, execAbort] at h
    by_cases ha : s.sess = .active
    · rw [if_pos (by simpa)] at h
      injection h with h
      simp [ha, ← h]
    · rw [if_neg (by simpa)] at h
      injection h with h
      exact .inr (.inl h.symm)

/-! ### Runs of bytes -/

/-- Bytes change neither the session, nor the mode, nor the enable set of a BATCH or STREAM session
(43_batch_decoder.md R137). -/
theorem feed_keeps (bytes : List Byte) (s : State) :
    (s.feed bytes).sess = s.sess ∧ (s.feed bytes).mode = s.mode ∧ (s.feed bytes).en = s.en := by
  induction bytes generalizing s with
  | nil => exact ⟨rfl, rfl, rfl⟩
  | cons b bytes ih =>
    have h := ih (s.fstep b)
    exact ⟨h.1.trans (by simp), h.2.1.trans (by simp), h.2.2.trans (by simp)⟩

/-- RUN_BATCH with a channel enabled (43_batch_decoder.md R136). -/
theorem run_runBatch (en : BitVec 24) (buf : List Byte) (s : State) (hen : en ≠ 0) :
    run (runBatch en buf) s =
      .next { ((s.clearSession.openSession .batch en 0 0 0).feed buf).clearDecoder with sess := .done } := by
  have ha : acceptedMode 0 en 0 = some .batch := by
    unfold acceptedMode
    rw [if_pos]
    · rfl
    · unfold valid; simp; exact hen
  have h0 : exec (.start 0 en 0 0 0) s = .next (s.clearSession.openSession .batch en 0 0 0) := by
    simp only [exec, execStart, ha]
    congr 1
  unfold runBatch
  rw [List.cons_append, run, h0]
  dsimp only
  rw [run_append, run_pushN_full _ _ rfl (by simp)]
  have h1 := feed_keeps buf (s.clearSession.openSession .batch en 0 0 0)
  simp only [run, exec, execEnd]
  rw [if_pos (by rw [h1.1]; rfl), if_neg (by rw [h1.2.1]; simp)]

end Sys2Proof.Machine
end

