-- ==== Sys2Proof/Laws/Words.lean ====
section
/-! SUPPORT. How a word is assembled bit by bit (41_word_assembler.md R113, R114, R118): the bits a word holds after so
many of its data edges, and the edges of a frame that belong to a group. -/

namespace Sys2Proof.Machine

/-- An induction along `foldl` over `List.finRange n`: a property of the number of elements consumed and of the value. -/
theorem foldl_finRange_induction {α : Type} {n : Nat} (f : α → Fin n → α) (P : Nat → α → Prop) (s : α) (h0 : P 0 s)
    (hs : ∀ (j : Fin n) x, P j.val x → P (j.val + 1) (f x j)) : P n ((List.finRange n).foldl f s) := by
  have key : ∀ (l : List (Fin n)) (a : Nat) (x : α), (∀ j (h : j < l.length), (l[j]).val = a + j) → P a x →
      P (a + l.length) (l.foldl f x) := by
    intro l
    induction l with
    | nil => intro a x _ h; exact h
    | cons y l ih =>
      intro a x hl h
      have hy : y.val = a := by
        have h0 := hl 0 (by simp)
        rw [List.getElem_cons_zero] at h0
        simpa using h0
      have h1 := ih (a + 1) (f x y)
        (fun j hj => by
          have h2 := hl (j + 1) (by simpa using hj)
          simp only [List.getElem_cons_succ] at h2
          omega)
        (by have h3 := hs y x (by rw [hy]; exact h); rwa [hy] at h3)
      simpa [Nat.add_assoc, Nat.add_comm 1] using h1
  simpa using key (List.finRange n) 0 s (fun j h => by simp) h0

/-- The word `x` holds the first `q` of the data bits `b 23`, `b 22`, …, with bit 23 repeated above it; before the first
data bit it is 0. -/
def HoldsBits (x : Word) (q : Nat) (b : Nat → Bool) : Prop :=
  ∀ c < 32, x.getLsbD c = (decide (q ≠ 0) && (if 24 ≤ c then b 23 else if 24 ≤ c + q then b c else false))

theorem holdsBits_zero (b : Nat → Bool) : HoldsBits 0 0 b := by
  intro c _; simp

theorem HoldsBits.unique {x y : Word} {q : Nat} {b : Nat → Bool} (hx : HoldsBits x q b) (hy : HoldsBits y q b) :
    x = y := by
  apply BitVec.eq_of_getLsbD_eq
  intro c hc
  rw [hx c hc, hy c hc]

theorem HoldsBits.eq_zero {x : Word} {b : Nat → Bool} (h : HoldsBits x 0 b) : x = 0 := h.unique (holdsBits_zero b)

/-- After all 24 data bits the word is their sign extension (41_word_assembler.md R118). -/
theorem HoldsBits.eq_sext24 {x : Word} {b : Nat → Bool} (h : HoldsBits x 24 b) (v : BitVec 24)
    (hv : ∀ c < 24, v.getLsbD c = b c) : x = sext24 v := by
  apply BitVec.eq_of_getLsbD_eq
  intro c hc
  rw [h c hc, getLsbD_sext24 _ _ hc]
  by_cases h24 : 24 ≤ c
  · rw [if_pos h24, if_neg (by omega), hv 23 (by omega)]; simp
  · rw [if_neg h24, if_pos (by omega), if_pos (by omega), hv c (by omega)]; simp

theorem getLsbD_or_twoPow (x : Word) (c d : Nat) (hc : c < 32) :
    (x ||| BitVec.twoPow 32 c).getLsbD d = (x.getLsbD d || decide (c = d)) := by
  rw [BitVec.getLsbD_or, BitVec.getLsbD_twoPow, decide_eq_true hc, Bool.true_and]

/-- The sign lane holds the first data bit (41_word_assembler.md R113). -/
theorem holdsBits_signLane (cur : Byte) (k : Nat) (hk : k < 6) (b : Nat → Bool)
    (hb : b 23 = cur.getLsbD (lineShift ⟨k, hk⟩)) : HoldsBits (signLane cur k 0) 1 b := by
  intro c hc
  rw [signLane_eq _ _ _ hk, ← hb]
  have h1 : ∀ c < 32, (0xFF800000 : Word).getLsbD c = decide (23 ≤ c) := by decide
  cases h : b 23
  · simp
    intro h1 h2
    have h3 : c = 23 := by omega
    rw [h3]; exact h
  · simp only [if_true]
    rw [h1 c hc]
    by_cases h24 : 24 ≤ c
    · simp [h24]; omega
    · by_cases h23 : c = 23
      · subst h23; simp [h]
      · simp [h24]; intro; omega

/-- A data lane holds one data bit more (41_word_assembler.md R114). -/
theorem holdsBits_dataLane (cur : Byte) (k : Nat) (hk : k < 6) (x : Word) (q c : Nat) (b : Nat → Bool) (hq : 1 ≤ q)
    (hqc : c + q = 23) (hb : b c = cur.getLsbD (lineShift ⟨k, hk⟩)) (h : HoldsBits x q b) :
    HoldsBits (dataLane cur c k x) (q + 1) b := by
  intro d hd
  rw [dataLane_eq _ _ _ _ hk, ← hb]
  have hx := h d hd
  rw [decide_eq_true (show q ≠ 0 by omega)] at hx
  rw [decide_eq_true (show q + 1 ≠ 0 by omega)]
  simp only [Bool.true_and] at hx ⊢
  have e : (if b c = true then x ||| BitVec.twoPow 32 c else x).getLsbD d = (x.getLsbD d || (b c && decide (c = d))) := by
    clear hb hx h
    cases b c
    · simp
    · rw [if_pos rfl, getLsbD_or_twoPow _ _ _ (by omega)]; simp
  rw [e, hx]
  by_cases h24 : 24 ≤ d
  · rw [if_pos h24, if_pos h24, decide_eq_false (by omega)]; simp
  · rw [if_neg h24, if_neg h24]
    by_cases hdc : d = c
    · subst hdc
      rw [if_neg (by omega), if_pos (by omega)]; simp
    · rw [decide_eq_false (show ¬ c = d by omega)]
      by_cases hdq : 24 ≤ d + q
      · rw [if_pos hdq, if_pos (by omega)]; simp
      · rw [if_neg hdq, if_neg (by omega)]; simp

/-- How many data edges of group `g` are among the first `n` CLK edges of a frame (30_encoding.md R73). -/
def dataEdgesBefore (g n : Nat) : Nat :=
  if n ≤ 32 * g + 8 then 0 else if n ≤ 32 * g + 32 then n - (32 * g + 8) else 24

theorem dataEdgesBefore_start (g n : Nat) (h : n ≤ 32 * g + 8) : dataEdgesBefore g n = 0 := if_pos h

theorem dataEdgesBefore_end (g n : Nat) (h : 32 * g + 32 ≤ n) : dataEdgesBefore g n = 24 := by
  unfold dataEdgesBefore
  rw [if_neg (by omega)]
  split <;> omega

/-- The SIGN or DATA edge at position `p` of its group is data edge number `p - 8`. -/
theorem dataEdgesBefore_within (g n : Nat) (h : n / 32 = g) (hp : 8 ≤ n % 32) :
    dataEdgesBefore g n = n % 32 - 8 ∧ dataEdgesBefore g (n + 1) = n % 32 - 8 + 1 := by
  unfold dataEdgesBefore
  constructor <;> (repeat' split) <;> omega

theorem dataEdgesBefore_outside (g n : Nat) (h : n / 32 ≠ g ∨ n % 32 < 8) :
    dataEdgesBefore g (n + 1) = dataEdgesBefore g n := by
  unfold dataEdgesBefore
  (repeat' split) <;> omega

/-- One CLK edge carries each word from the data bits it held to those it holds after the edge. -/
theorem holdsBits_bitEdge (s : State) (n : BitVec 7) (cur : Byte) (i : Fin 24) (b : Nat → Bool)
    (hb : n.toNat / 32 = i.val / 6 → 8 ≤ n.toNat % 32 →
      b (31 - n.toNat % 32) = cur.getLsbD (lineShift ⟨i.val % 6, Nat.mod_lt _ (by decide)⟩))
    (h : HoldsBits (s.readW i) (dataEdgesBefore (i.val / 6) n.toNat) b) :
    HoldsBits ((s.bitEdge n cur).readW i) (dataEdgesBefore (i.val / 6) (n.toNat + 1)) b := by
  rw [readW_bitEdge]
  by_cases hin : n.toNat / 32 = i.val / 6 ∧ 8 ≤ n.toNat % 32
  · obtain ⟨hg, hp⟩ := hin
    obtain ⟨e0, e1⟩ := dataEdgesBefore_within _ _ hg hp
    rw [if_neg (by rintro (h | h); exact absurd hp (by simpa [slotPos] using h); exact h hg.symm)]
    rw [e0] at h
    rw [e1]
    by_cases hp8 : n.toNat % 32 = 8
    · rw [if_pos (show slotPos n = 8 from hp8)]
      rw [hp8] at h ⊢
      rw [h.eq_zero]
      apply holdsBits_signLane _ _ (Nat.mod_lt _ (by decide))
      have h1 := hb hg hp
      rwa [hp8] at h1
    · rw [if_neg (show ¬ slotPos n = 8 from hp8)]
      exact holdsBits_dataLane _ _ (Nat.mod_lt _ (by decide)) _ _ _ _ (by omega) (by unfold dataIndex slotPos; omega)
        (hb hg hp) h
  · rw [if_pos (show slotPos n < 8 ∨ i.val / 6 ≠ slotGroup n by unfold slotPos slotGroup; omega),
      dataEdgesBefore_outside _ _ (by omega)]
    exact h

/-! ### Sign-extended words -/

theorem sext24_or_twoPow (x : Word) (c : Nat) (hc : c ≤ 22) (h : x = sext24 (x.setWidth 24)) :
    x ||| BitVec.twoPow 32 c = sext24 ((x ||| BitVec.twoPow 32 c).setWidth 24) := by
  rw [eq_sext24_iff] at h ⊢
  intro j h1 h2
  simp only [BitVec.getLsbD_or, BitVec.getLsbD_twoPow]
  rw [h j h1 h2, decide_eq_false (show c ≠ j by omega), decide_eq_false (show c ≠ 23 by omega)]

/-- The bit operation of an edge keeps the words sign-extended (41_word_assembler.md R117). -/
theorem sext24_bitEdge (s : State) (n : BitVec 7) (b : Byte)
    (h : ∀ i : Fin 24, s.readW i = sext24 ((s.readW i).setWidth 24)) (i : Fin 24) :
    (s.bitEdge n b).readW i = sext24 (((s.bitEdge n b).readW i).setWidth 24) := by
  rw [readW_bitEdge]
  split
  · exact h i
  · have h6 : i.val % 6 < 6 := Nat.mod_lt _ (by decide)
    split
    · rw [signLane_eq _ _ _ h6]
      split
      · decide
      · exact h i
    · rw [dataLane_eq _ _ _ _ h6]
      split
      · exact sext24_or_twoPow _ _ (by simp only [dataIndex]; omega) (h i)
      · exact h i

end Sys2Proof.Machine
end

