-- ==== Sys2Proof/Tests/Slice0.lean ====
section
/-! SUPPORT. Small tests: ill-formed terms that WellFormed refuses, words written out from spec/30_encoding.md, one step of
each instruction with the result the spec prints, and for each statement with hypotheses a state that meets them. -/

namespace Sys2Proof.Tests

open Sys2Proof.Machine

set_option maxRecDepth 10000

/-- A field of the next state, none where there is no next state. -/
def after {α : Type} (o : Host.Outcome State Fault Refusal) (f : State → α) : Option α :=
  match o with
  | .next s => some (f s)
  | .fault _ => none
  | .refused _ => none

/-- The reason of a refusal, none where there is none. -/
def refusal (o : Host.Outcome State Fault Refusal) : Option Refusal :=
  match o with
  | .next _ => none
  | .fault _ => none
  | .refused r => some r

/-- An active BATCH session with channel 0 enabled, the previous byte and the counter given. -/
def full (prev : Byte) (cc : Option (BitVec 7)) : State :=
  { State.reset with sess := .active, en := 1, prev := prev, prevValid := true, cc := cc }

/-- An active THRESH session on channel 5 with threshold 100000, the previous byte and the counter given. -/
def scan (prev : Byte) (cc : Option (BitVec 7)) (acc : Word) : State :=
  { State.reset with
    sess := .active, mode := .thresh, tch := 5, thr := 100000, budget := 2, prev := prev, prevValid := true, cc := cc
    acc := acc }

/-! ### WellFormed refuses -/

theorem test_wf_drdyFall : Instr.wellFormed (.drdyFall 0x7F 0x00) = false := by decide
theorem test_wf_clkEdge : Instr.wellFormed (.clkEdge 0x10 0x50) = false := by decide
theorem test_wf_noEdge : Instr.wellFormed (.noEdge 0xC0 0x00) = false := by decide
theorem test_wf_hdr : Instr.wellFormed (.hdr 40 0) = false := by decide
theorem test_wf_sign : Instr.wellFormed (.sign 9 0) = false := by decide
theorem test_wf_dataLo_below : Instr.wellFormed (.dataLo 8 0) = false := by decide
theorem test_wf_dataLo_above : Instr.wellFormed (.dataLo 16 0) = false := by decide
theorem test_wf_dataHi : Instr.wellFormed (.dataHi 47 0) = false := by decide
theorem test_wf_tskip_target : Instr.wellFormed (.tskip 24 0 0) = false := by decide
theorem test_wf_tskip_edge : Instr.wellFormed (.tskip 5 40 0) = false := by decide
theorem test_wf_tsign : Instr.wellFormed (.tsign 24 0) = false := by decide
theorem test_wf_tdata_target : Instr.wellFormed (.tdata 31 127 0) = false := by decide
theorem test_wf_tdata_below : Instr.wellFormed (.tdata 5 40 0) = false := by decide
theorem test_wf_tdata_above : Instr.wellFormed (.tdata 5 64 0) = false := by decide
theorem test_wf_tcmp : Instr.wellFormed (.tcmp 24) = false := by decide

/-! ### Words written out from 30_encoding.md R72 to R79 and opcode_table.json -/

theorem test_decode_reset : decode (.op { HostPorts.idle with rst := true, cmd := 0b010 }) = .ok .reset := by decide
theorem test_decode_nop : decode (.op { HostPorts.idle with cmd := 0b000 }) = .ok .nop := by decide
theorem test_decode_start :
    decode (.op { HostPorts.idle with
      cmd := 0b001, cfgMode := 2, cfgEn := 1, cfgTch := 5, cfgThr := 100000, cfgBudget := 4096 }) =
      .ok (.start 2 1 5 100000 4096) := by decide
theorem test_decode_push : decode (.op { HostPorts.idle with cmd := 0b010, din := 0xA5 }) = .ok (.push 0xA5) := by decide
theorem test_decode_end : decode (.op { HostPorts.idle with cmd := 0b011 }) = .ok .endInput := by decide
theorem test_decode_abort : decode (.op { HostPorts.idle with cmd := 0b100 }) = .ok .abort := by decide
theorem test_decode_reserved5 : decode (.op { HostPorts.idle with cmd := 0b101 }) = .ok .reserved5 := by decide
theorem test_decode_reserved6 : decode (.op { HostPorts.idle with cmd := 0b110 }) = .ok .reserved6 := by decide
theorem test_decode_reserved7 : decode (.op { HostPorts.idle with cmd := 0b111 }) = .ok .reserved7 := by decide
/-- 40_edge_scanner.md R101's example. -/
theorem test_decode_drdyFall : decode (.pair false 0b1100000101000001) = .ok (.drdyFall 0xC1 0x41) := by decide
/-- 40_edge_scanner.md R102's example. -/
theorem test_decode_clkEdge : decode (.pair true 0b0101000000010000) = .ok (.clkEdge 0x50 0x10) := by decide
/-- 40_edge_scanner.md R103's example. -/
theorem test_decode_noEdge : decode (.pair false 0b0101000000010000) = .ok (.noEdge 0x50 0x10) := by decide
theorem test_decode_hdr : decode (.slot 0b0100011 0x3F) = .ok (.hdr 35 0x3F) := by decide
theorem test_decode_sign : decode (.slot 0b0001000 0x11) = .ok (.sign 8 0x11) := by decide
theorem test_decode_dataLo : decode (.slot 0b0001001 0x10) = .ok (.dataLo 9 0x10) := by decide
theorem test_decode_dataHi : decode (.slot 0b1110000 0x01) = .ok (.dataHi 112 0x01) := by decide
theorem test_decode_emit : decode (.slotDone 0b1111111) = .ok .emit := by decide
theorem test_decode_no_emit : decode (.slotDone 0b1111110) = .error (.noCompletionAtEdge 126) := by decide
theorem test_decode_tskip : decode (.tslot 5 0b0100111 0xFF) = .ok (.tskip 5 39 0xFF) := by decide
theorem test_decode_tsign : decode (.tslot 5 0b0101000 0x20) = .ok (.tsign 5 0x20) := by decide
theorem test_decode_tdata : decode (.tslot 5 0b0101001 0x20) = .ok (.tdata 5 41 0x20) := by decide
theorem test_decode_tcmp : decode (.tslotDone 5 0b0111111) = .ok (.tcmp 5) := by decide
theorem test_decode_tslot_past : decode (.tslot 5 0b1000000 0) = .error (.edgeNotConsumed 5 64) := by decide
theorem test_decode_tslot_target : decode (.tslot 24 0 0) = .error (.targetOutOfRange 24) := by decide
theorem test_decode_remap : decode (.fn 0b00101) = .ok (.remap 5) := by decide
theorem test_decode_remap_range : decode (.fn 24) = .error (.channelOutOfRange 24) := by decide

/-- Words of opcode_table.json by their widths: ABORT, DRDY_FALL, CLK_EDGE, SIGN of group 1, EMIT, REMAP of channel 5. -/
theorem test_tableWord :
    decodeTableWord 8 0x4 = some .abort ∧ decodeTableWord 16 0x8000 = some (.drdyFall 0x80 0) ∧
    decodeTableWord 16 0x4000 = some (.clkEdge 0x40 0) ∧ decodeTableWord 8 0x28 = some (.sign 40 0) ∧
    decodeTableWord 8 0x7F = some .emit ∧ decodeTableWord 5 5 = some (.remap 5) ∧ decodeTableWord 8 0x80 = none := by decide

/-! ### The word placed is the word that runs -/

theorem test_fetch_start : after (step (State.reset.withFetchWord 8 0x1)) id = after (exec (.start 0 0 0 0 0) State.reset) id := by decide
theorem test_fetch_reserved : refusal (step (State.reset.withFetchWord 8 0x6)) = some (.reservedCommand 6) := by decide
theorem test_fetch_drdyFall : after (step (State.reset.withFetchWord 16 0x8000)) (·.cc) = some (some 0) := by decide
theorem test_fetch_data : after (step (State.reset.withFetchWord 7 0x10)) (·.cc) = some (some 17) := by decide
theorem test_fetch_emit : after (step (State.reset.withFetchWord 8 0x7F)) (·.emitted) = some (some []) := by decide
theorem test_fetch_remap : after (step (State.reset.withFetchWord 5 5)) (·.out) = some [0, 0, 0, 0] := by decide

/-! ### One step, with the result the spec prints -/

theorem test_reset : after (exec .reset (scan 0x80 (some 9) 7)) (fun t => (t.sess, t.cc, t.acc, t.budget)) =
    some (.none, none, 0, 0) := by decide
theorem test_nop : after (exec .nop (full 0x50 (some 8))) (fun t => (t.prev, t.cc)) = some (0x50, some 8) := by decide
/-- 46_session_control.md R173's example. -/
theorem test_start : after (exec (.start 2 0 5 100000 4096) State.reset) (fun t => (t.sess, t.mode, t.tch)) =
    some (.active, .thresh, 5) := by decide
/-- 46_session_control.md R174: VALID(THRESH, 0, 24) is false; code 3 and no session, whatever was there. -/
theorem test_start_rejected : after (exec (.start 2 0 24 0 9) (full 0x50 (some 8))) (fun t => (t.sess, t.err, t.cc, t.en)) =
    some (.none, .malformedConfiguration, none, 1) := by decide
/-- 43_batch_decoder.md R137's example. -/
theorem test_push : after (exec (.push 0x10) (full 0x50 (some 8))) (fun t => (t.readW 0, t.cc, t.prev)) =
    some (0xFF800000, some 9, 0x10) := by decide
/-- 45_threshold_prescanner.md R162: the budget's last byte ends the scan. -/
theorem test_push_budget :
    after (exec (.push 0x00) { scan 0x00 none 0 with scanned := 1 }) (fun t => (t.sess, t.result, t.scanned)) =
      some (.done, .notTriggered, 2) := by decide
theorem test_end : after (exec .endInput (full 0x50 (some 100))) (fun t => (t.sess, t.cc, t.prevValid, t.err)) =
    some (.done, none, false, .none) := by decide
theorem test_end_thresh : after (exec .endInput (scan 0x50 (some 41) 5)) (fun t => (t.result, t.acc)) =
    some (.notTriggered, 0) := by decide
theorem test_abort : after (exec .abort (scan 0x50 (some 41) 5)) (fun t => (t.sess, t.err, t.acc, t.result)) =
    some (.failed, .transportFailure, 0, .none) := by decide
theorem test_reserved : refusal (exec .reserved5 (full 0x50 none)) = some (.reservedCommand 5) ∧
    refusal (exec .reserved6 (full 0x50 none)) = some (.reservedCommand 6) ∧
    refusal (exec .reserved7 (full 0x50 none)) = some (.reservedCommand 7) := by decide
/-- 40_edge_scanner.md R104's example. -/
theorem test_drdyFall : after (exec (.drdyFall 0xC0 0x00) (full 0xC0 none)) (fun t => (t.cc, t.prev)) =
    some (some 0, 0x00) := by decide
/-- 40_edge_scanner.md R107's example: the lines are read from 0x0E, here data bit 22 of group 0. -/
theorem test_clkEdge :
    after (exec (.clkEdge 0x71 0x0E) (full 0x71 (some 9))) (fun t => (t.readW 0, t.readW 2, t.readW 3, t.readW 4, t.cc)) =
      some (0, 0x00400000, 0x00400000, 0x00400000, some 10) := by decide
/-- 40_edge_scanner.md R103's example. -/
theorem test_noEdge : after (exec (.noEdge 0x50 0x10) (full 0x50 none)) (fun t => (t.cc, t.prev)) =
    some (none, 0x10) := by decide
/-- 41_word_assembler.md R112's example. -/
theorem test_hdr : after (exec (.hdr 35 0x3F) (full 0x40 (some 35))) id = some (full 0x40 (some 35)) := by decide
/-- 41_word_assembler.md R113's example. -/
theorem test_sign :
    after (exec (.sign 8 0x11) (full 0x40 (some 8))) (fun t => (t.readW 0, t.readW 1, t.readW 4, t.readW 5, t.readW 6)) =
      some (0xFF800000, 0, 0, 0xFF800000, 0) := by decide
/-- 41_word_assembler.md R114's example. -/
theorem test_dataLo : after (exec (.dataLo 9 0x10) (full 0x40 (some 9))) (fun t => (t.readW 0, t.readW 1)) =
    some (0x00400000, 0) := by decide
/-- 30_encoding.md R73: the last edge of group 3 carries bit 0 of slots 18 to 23; DOUT5 is slot 23. -/
theorem test_dataHi : after (exec (.dataHi 127 0x01) (full 0x40 (some 127))) (fun t => (t.readW 23, t.readW 18)) =
    some (1, 0) := by decide
/-- 45_threshold_prescanner.md R157's example. -/
theorem test_tskip : after (exec (.tskip 5 39 0xFF) (scan 0x40 (some 39) 0)) id = some (scan 0x40 (some 39) 0) := by decide
/-- 45_threshold_prescanner.md R158's examples. -/
theorem test_tsign : after (exec (.tsign 5 0x20) (scan 0x40 (some 40) 0)) (·.acc) = some 0xFF800000 ∧
    after (exec (.tsign 5 0x1F) (scan 0x40 (some 40) 0)) (·.acc) = some 0 := by decide
/-- 45_threshold_prescanner.md R159's example. -/
theorem test_tdata : after (exec (.tdata 5 41 0x20) (scan 0x40 (some 41) 0)) (·.acc) = some 0x00400000 := by decide
/-- 45_threshold_prescanner.md R160's examples, with the threshold itself: equality triggers. -/
theorem test_tcmp_triggers : after (exec (.tcmp 5) (scan 0x40 (some 63) 0x000249F0)) (fun t => (t.result, t.sess, t.acc)) =
    some (.triggered, .done, 0x000249F0) ∧
    after (exec (.tcmp 5) (scan 0x40 (some 63) 100000)) (·.result) = some .triggered := by decide
theorem test_tcmp_rearms :
    after (exec (.tcmp 5) (scan 0x40 (some 63) 0x0000C350)) (fun t => (t.result, t.sess, t.acc, t.cc)) =
      some (.none, .active, 0, none) := by decide
/-- 42_sample_emitter.md R125's example. -/
theorem test_remap : after (exec (.remap 5) State.reset) (·.ret) = some (some 7) := by decide
/-- 42_sample_emitter.md R127's example. -/
theorem test_emit :
    after (exec .emit { State.reset with en := 0x800001, w := ((Vector.replicate 24 0).set 0 0x00123456).set 23 0xFFFEDCBA })
      (·.out) = some [0x56, 0x34, 0x12, 0x00, 0xBA, 0xDC, 0xFE, 0xFF] := by decide
/-- 30_encoding.md R84's notation. -/
theorem test_trace : traceLine (.push 0x80) = some "PUSH 0x80" ∧
    traceLine (.start 1 0xFFFFFF 0 0 0) = some "START STREAM en=0xFFFFFF" ∧
    traceLine (.start 2 1 5 100000 4096) = some "START THRESH tch=5 thr=0x000186A0 budget=4096 en=0x000001" := by decide

/-- 10_state.md R37: two records of one channel are two frames; no number with no channel enabled or in THRESH mode. -/
theorem test_frames : { full 0x40 none with out := List.replicate 8 0 }.frames = some 2 ∧ State.reset.frames = none ∧
    (scan 0x40 none 0).frames = none := by decide

/-! ### The hypotheses of the statements can be met, at the ends of their ranges -/

theorem test_meets_StartClearsThenValidates :
    (¬ ((3 : BitVec 2) = 0 ∧ (1 : BitVec 24) ≠ 0 ∨ (3 : BitVec 2) = 1 ∧ (1 : BitVec 24) ≠ 0 ∨
      (3 : BitVec 2) = 2 ∧ (0 : BitVec 5).toNat ≤ 23)) ∧
    (¬ ((2 : BitVec 2) = 0 ∧ (1 : BitVec 24) ≠ 0 ∨ (2 : BitVec 2) = 1 ∧ (1 : BitVec 24) ≠ 0 ∨
      (2 : BitVec 2) = 2 ∧ (24 : BitVec 5).toNat ≤ 23)) ∧
    ((0 : BitVec 2) = 0 ∧ (1 : BitVec 24) ≠ 0) ∧ ((1 : BitVec 2) = 1 ∧ (0x800000 : BitVec 24) ≠ 0) ∧
    ((2 : BitVec 2) = 2 ∧ (23 : BitVec 5).toNat ≤ 23 ∧ (1 : BitVec 32) ≠ 0) ∧
    ((2 : BitVec 2) = 2 ∧ (23 : BitVec 5).toNat ≤ 23 ∧ (0 : BitVec 32) = 0) := by decide

theorem test_meets_PushInFullMode :
    (full 0x80 none).sess = .active ∧ (full 0x80 none).mode ≠ .thresh ∧
    { full 0x80 none with prevValid := false }.prevValid = false ∧
    ((full 0x80 none).prevValid = true ∧ (full 0x80 none).cc = none ∧
      ((full 0x80 none).prev &&& 0x80 = 0x80 ∧ (0x40 : Byte) &&& 0x80 = 0)) ∧
    (¬ ((full 0x00 none).prev &&& 0x80 = 0x80 ∧ (0x40 : Byte) &&& 0x80 = 0)) ∧
    ((full 0x40 (some 127)).cc = some 127 ∧ ((full 0x40 (some 127)).prev &&& 0x40 = 0x40 ∧ (0x3F : Byte) &&& 0x40 = 0)) ∧
    (¬ ((full 0x00 (some 127)).prev &&& 0x40 = 0x40 ∧ (0x3F : Byte) &&& 0x40 = 0)) := by decide

theorem test_meets_PushInThreshMode :
    (scan 0x40 (some 63) 1).sess = .active ∧ (scan 0x40 (some 63) 1).mode = .thresh ∧
    (scan 0x40 (some 63) 1).tch.toNat ≤ 23 ∧ (scan 0x40 (some 63) 1).scanned.toNat < (scan 0x40 (some 63) 1).budget.toNat ∧
    ∀ n, (scan 0x40 (some 63) 1).cc = some n → n.toNat ≤ clockSkip (scan 0x40 (some 63) 1).tch + 23 := by
  refine ⟨rfl, rfl, by decide, by decide, fun n h => ?_⟩
  obtain rfl : (63 : BitVec 7) = n := Option.some.inj h
  decide

theorem test_meets_NoEffectOutsideSession : State.reset.sess ≠ .active := by decide

theorem test_meets_EndClearsAndCloses :
    ((full 0x40 (some 9)).sess = .active ∧ (full 0x40 (some 9)).mode ≠ .thresh) ∧
    ((scan 0x40 none 0).sess = .active ∧ (scan 0x40 none 0).mode = .thresh) ∧ State.reset.sess ≠ .active := by decide

theorem test_meets_AbortRaisesTransportFailure :
    (full 0x40 (some 9)).sess = .active ∧ State.reset.sess ≠ .active := by decide

theorem test_meets_ReservedCodesRefused :
    { State.reset with host := [HostPorts.command 5] }.ports.rst = false ∧
    { State.reset with host := [HostPorts.command 5] }.ports.cmd = 5 ∧
    { State.reset with host := [HostPorts.command 6] }.ports.cmd = 6 ∧
    { State.reset with host := [HostPorts.command 7] }.ports.cmd = 7 := by decide

theorem test_meets_DrdyFallStartsFrame :
    (0x80 : Byte) &&& 0x80 = 0x80 ∧ (0x40 : Byte) &&& 0x80 = 0 ∧ (full 0x80 none).prevValid = true ∧
    (full 0x80 none).cc = none ∧ State.reset.prevValid = false ∧ (full 0x80 (some 0)).cc ≠ none := by decide

theorem test_meets_ClkEdgeIsClkStep :
    (0x40 : Byte) &&& 0x40 = 0x40 ∧ (0x3F : Byte) &&& 0x40 = 0 ∧
    ((full 0x40 (some 127)).prevValid = true ∧ (full 0x40 (some 127)).cc = some 127 ∧ (full 0x40 (some 127)).mode ≠ .thresh) ∧
    ((scan 0x40 (some 63) 0).prevValid = true ∧ (scan 0x40 (some 63) 0).cc = some 63 ∧ (scan 0x40 (some 63) 0).mode = .thresh) ∧
    State.reset.prevValid = false ∧ (full 0x40 none).cc = none := by decide

theorem test_meets_PushRunsDecodedPair :
    ((full 0x80 none).sess = .active ∧ (full 0x80 none).prevValid = true ∧ (full 0x80 none).mode ≠ .thresh) ∧
    ((scan 0x80 none 0).sess = .active ∧ (scan 0x80 none 0).prevValid = true ∧ (scan 0x80 none 0).mode = .thresh) := by decide

theorem test_meets_RepeatedByteHasNoEffect :
    (full 0x40 (some 127)).sess = .active ∧ (full 0x40 (some 127)).mode ≠ .thresh ∧
    exec (.push 0x3F) (full 0x40 (some 127)) = .next ((full 0x40 (some 127)).fstep 0x3F) := by
  refine ⟨rfl, by decide, rfl⟩

theorem test_meets_IgnoredLinesHaveNoEffect :
    ((full 0x80 none).cc = none ∧ (0x00 : Byte) &&& 0x80 = (0x7F : Byte) &&& 0x80) ∧
    ((full 0x00 (some 9)).cc ≠ none ∧ (0x00 : Byte) &&& 0x40 = (0x3F : Byte) &&& 0x40 ∧
      ¬ ((full 0x00 (some 9)).prev &&& 0x40 = 0x40 ∧ (0x00 : Byte) &&& 0x40 = 0)) ∧
    ((full 0x40 (some 7)).cc ≠ none ∧ (0x00 : Byte) &&& 0x40 = (0xBF : Byte) &&& 0x40 ∧
      (full 0x40 (some 7)).cc = some 7 ∧ (7 : BitVec 7).toNat % 32 < 8) ∧
    ((scan 0x40 (some 63) 0).tch.toNat ≤ 23 ∧ (63 : BitVec 7).toNat ≤ clockSkip (scan 0x40 (some 63) 0).tch + 23 ∧
      (0x20 : Byte) &&& 0x40 = (0xBF : Byte) &&& 0x40 ∧
      lineBit 0x20 (targetLine (scan 0x40 (some 63) 0).tch) = lineBit 0xBF (targetLine (scan 0x40 (some 63) 0).tch)) := by
  decide

theorem test_meets_ClkStepRunsDecodedSlot :
    decodeSlotDone 127 = .ok .emit ∧ decodeSlotDone 126 = .error (.noCompletionAtEdge 126) := by decide

theorem test_meets_GroupWordIsSignExtended : State.reset.readW ⟨6 * (3 : Fin 4).val + (5 : Fin 6).val, by decide⟩ = 0 := by
  decide

theorem test_meets_EmissionOnlyAtEdge127 :
    after (exec (.push 0x00) (full 0x40 (some 127))) (fun t => (t.out, (full 0x40 (some 127)).out)) = some ([0, 0, 0, 0], []) ∧
    after (exec .emit (full 0x40 none)) (·.out) = some [0, 0, 0, 0] ∧
    after (exec (.start 0 1 0 0 0) { State.reset with out := [1] }) (·.out) = some [] := by decide

theorem test_meets_TsignPreloadsAccumulator : (23 : BitVec 5).toNat < 24 := by decide

theorem test_meets_TdataAccumulatesBit :
    (23 : BitVec 5).toNat < 24 ∧ (23 : BitVec 5).toNat % 4 * 32 + 8 < (105 : BitVec 7).toNat ∧
    (23 : BitVec 5).toNat % 4 * 32 + 8 < (127 : BitVec 7).toNat ∧
    (127 : BitVec 7).toNat ≤ (23 : BitVec 5).toNat % 4 * 32 + 8 + 23 := by decide

theorem test_meets_TcmpTriggersOrRearms :
    (scan 0x40 (some 63) 100000).thr.toInt ≤ (scan 0x40 (some 63) 100000).acc.toInt ∧
    (scan 0x40 (some 63) 99999).acc.toInt < (scan 0x40 (some 63) 99999).thr.toInt := by decide

theorem test_meets_TargetStepRunsDecodedSlot :
    (scan 0x40 (some 63) 0).tch.toNat ≤ 23 ∧ (63 : BitVec 7).toNat ≤ clockSkip (scan 0x40 (some 63) 0).tch + 23 ∧
    decodeTslotDone (scan 0x40 (some 63) 0).tch 63 = .ok (.tcmp 5) ∧
    decodeTslotDone (scan 0x40 (some 63) 0).tch 62 = .error (.edgeNotConsumed 5 62) := by decide

theorem test_meets_ScannerAgreesWithDecoder :
    (∀ i : Fin 24, State.reset.readW i = 0) ∧ (scan 0x40 none 0).acc = 0 ∧ (scan 0x40 none 0).tch.toNat < 24 := by decide

theorem test_meets_StepRunsDecodedInstruction :
    decode (.op { State.reset with host := [pushPorts 0x80] }.ports) = .ok (.push 0x80) := by decide

theorem test_meets_SessionTable :
    ((full 0x40 none).sess = .active ∧ (full 0x40 none).mode ≠ .thresh ∧
      (after (exec (.push 0) (full 0x40 none)) (·.sess)).isSome) ∧
    ((scan 0x40 none 0).sess = .active ∧ (scan 0x40 none 0).mode = .thresh ∧ (scan 0x40 none 0).result = .none ∧
      (after (exec (.push 0) (scan 0x40 none 0)) (·.sess)).isSome) ∧
    valid 2 0 24 = false ∧ valid 0 1 0 = true ∧ valid 2 0 23 = true ∧ State.reset.sess ≠ .active := by decide

theorem test_meets_WordsWrittenOnlyByAssembler :
    after (exec (.dataHi 31 0x01) (full 0x40 (some 31))) (fun t => decide (t.w ≠ (full 0x40 (some 31)).w)) = some true ∧
    after (exec (.push 0x01) (full 0x40 (some 31))) (fun t => decide (t.w ≠ (full 0x40 (some 31)).w)) = some true ∧
    after (exec .reset { State.reset with w := Vector.replicate 24 1 }) (·.readW 0) = some 0 := by decide

theorem test_meets_LatchesWrittenOnlyByStart :
    after (exec (.start 1 0x800000 0 0 0) State.reset) (fun t => (t.mode, t.en)) = some (.stream, 0x800000) ∧
    after (exec .nop State.reset) (·.mode) = some .batch := by decide

theorem test_meets_CounterReadsSigned : (full 0 none).cc = none ∧ (full 0 (some 127)).cc = some 127 := by decide

theorem test_meets_RecordPortsCarryRecord :
    { State.reset with emitted := some (List.replicate 96 0xA5) }.emitted = some (List.replicate 96 0xA5) ∧
    (List.replicate 96 (0xA5 : Byte)).length ≤ 96 ∧ State.reset.emitted = none := by decide

theorem test_meets_ChunkBoundariesInvisible :
    (full 0x40 (some 127)).sess = .active ∧ (full 0x40 (some 127)).mode ≠ .thresh ∧
    after (run (pushN ([] ++ [0x3F])) (full 0x40 (some 127))) (·.sess) = some .active ∧
    (scan 0x80 none 0).sess = .active ∧ after (run (pushN ([] ++ [0x00])) (scan 0x80 none 0)) (·.sess) = some .active := by
  decide

theorem test_meets_StreamEqualsBatch : (1 : BitVec 24) ≠ 0 := by decide

theorem test_meets_CanonicalFrameRoundTrip :
    (full 0xC0 none).sess = .active ∧ (full 0xC0 none).mode ≠ .thresh ∧ (full 0xC0 none).cc = none ∧
    ∀ i : Fin 24, (full 0xC0 none).readW i = 0 := by decide

theorem test_meets_DecodeEncodeRoundTrip :
    WellFormed (.tdata 23 127 0x01) ∧ WellFormed (.noEdge 0x50 0x10) ∧ WellFormed (.dataHi 127 0) ∧ WellFormed (.tcmp 23) := by
  decide

theorem test_meets_StepKeepsAssemblerInv :
    (full 0x40 none).AssemblerInv ∧ (after (step (full 0x40 none)) (·.cc)).isSome := by
  refine ⟨⟨fun _ => by decide, fun n h => ?_, fun n h => ?_, by decide, by decide, by decide⟩, by decide⟩ <;> cases h

theorem test_meets_StepKeepsThresholdInv :
    (scan 0x40 none 0).ThresholdInv ∧ (after (step (scan 0x40 none 0)) (·.cc)).isSome := by
  refine ⟨⟨by decide, by decide, by decide, by decide, by decide, fun _ _ n h => ?_, fun _ _ n h => ?_⟩, by decide⟩ <;>
    cases h

theorem test_meets_StepKeepsSessionInv :
    (full 0x40 (some 127)).SessionInv ∧ (after (step (full 0x40 (some 127))) (·.cc)).isSome := by
  exact ⟨⟨by decide, by decide, by decide, by decide, by decide⟩, by decide⟩

theorem test_meets_StepKeepsOutputInv :
    { full 0x40 (some 127) with out := [0, 0, 0, 0] }.OutputInv ∧
      (after (step { full 0x40 (some 127) with out := [0, 0, 0, 0] }) (·.cc)).isSome := by
  refine ⟨⟨by decide, by decide, fun r h => ?_⟩, by decide⟩
  cases h

theorem test_meets_DecodedIsWellFormed :
    decode (.tslot 23 127 0) = .ok (.tdata 23 127 0) ∧ decode (.fn 23) = .ok (.remap 23) ∧
    decode (.pair true 0xC000) = .ok (.clkEdge 0xC0 0x00) := by decide

theorem test_meets_ByteRaisesNothing : (full 0x40 (some 127)).mode ≠ .thresh := by decide

theorem test_meets_PairAndSlotWords :
    (127 : BitVec 7).toNat % 32 = 31 ∧ (7 : BitVec 7).toNat % 32 < 8 ∧ (104 : BitVec 7).toNat % 32 = 8 ∧
    (15 : BitVec 7).toNat % 32 < 16 := by decide

theorem test_meets_TargetSlotWordsDecode :
    (22 : BitVec 5).toNat ≤ 23 ∧ (71 : BitVec 7).toNat < (22 : BitVec 5).toNat % 4 * 32 + 8 ∧
    (72 : BitVec 7).toNat = (22 : BitVec 5).toNat % 4 * 32 + 8 ∧
    (22 : BitVec 5).toNat % 4 * 32 + 8 < (95 : BitVec 7).toNat ∧ (95 : BitVec 7).toNat ≤ (22 : BitVec 5).toNat % 4 * 32 + 8 + 23 ∧
    (22 : BitVec 5).toNat % 4 * 32 + 8 + 23 < (96 : BitVec 7).toNat := by decide

theorem test_meets_HostWordsDecode :
    { HostPorts.idle with rst := true, cmd := 7 }.rst = true ∧ (HostPorts.command 7).rst = false := by decide

end Sys2Proof.Tests
end

section
/-! SUPPORT. Format OP in the terms of 30_encoding.md R79, and the statement that the ports select what R79 tables. -/

namespace Sys2Proof.Machine

/-- The table's mask and match for RESET are the `rst` port, whatever `cmd` carries. -/
theorem opWord_reset_iff (p : HostPorts) : p.opWord &&& 0x8 = 0x8 ↔ p.rst = true := by
  have bit3 : ∀ (r : Bool) (c : BitVec 3), (BitVec.ofBool r ++ c : BitVec 4) &&& 0x8 = 0x8 ↔ r = true := by decide
  exact bit3 p.rst p.cmd

/-- Format OP with a reset request (30_encoding.md R79). -/
theorem decodeOp_of_rst {p : HostPorts} (h : p.rst = true) : decodeOp p = .reset :=
  if_pos ((opWord_reset_iff p).2 h)

/-- Format OP without a reset request: the code alone selects (30_encoding.md R79). -/
theorem decodeOp_of_not_rst {p : HostPorts} (h : p.rst = false) :
    decodeOp p =
      if p.cmd = 0 then .nop
      else if p.cmd = 1 then .start p.cfgMode p.cfgEn p.cfgTch p.cfgThr p.cfgBudget
      else if p.cmd = 2 then .push p.din
      else if p.cmd = 3 then .endInput
      else if p.cmd = 4 then .abort
      else if p.cmd = 5 then .reserved5
      else if p.cmd = 6 then .reserved6
      else .reserved7 := by
  have hno : ¬ p.opWord &&& 0x8 = 0x8 := by rw [opWord_reset_iff, h]; exact Bool.false_ne_true
  exact if_neg hno

/-- The codes of the command port (30_encoding.md R79). -/
theorem cmd_cases (c : BitVec 3) : c = 0 ∨ c = 1 ∨ c = 2 ∨ c = 3 ∨ c = 4 ∨ c = 5 ∨ c = 6 ∨ c = 7 := by
  revert c; decide

/-- Settles O50: `rst` is the table's RESET bit, and below it each of the eight codes picks its own row. -/
theorem hostWordsDecode : Obligations.HostWordsDecode := by
  intro p
  refine ⟨fun hrst => congrArg Except.ok (decodeOp_of_rst hrst), fun hrst => congrArg Except.ok ?_⟩
  rw [decodeOp_of_not_rst hrst]
  obtain hcmd | hcmd | hcmd | hcmd | hcmd | hcmd | hcmd | hcmd := cmd_cases p.cmd <;> rw [hcmd] <;> rfl

end Sys2Proof.Machine
end

section
/-! SUPPORT. The edge test in bits (40_edge_scanner.md R100 to R102), and the statement that it is the transition 1 to 0. -/

namespace Sys2Proof.Machine

theorem twoPow_ne_zero (k : Fin 8) : BitVec.twoPow 8 k ≠ 0 := by
  revert k; decide

/-- The first half of the edge test: the masked line is 1. -/
theorem and_twoPow_eq_mask (b : Byte) (k : Fin 8) :
    (b &&& BitVec.twoPow 8 k == BitVec.twoPow 8 k) = b.getLsbD k := by
  rw [BitVec.and_twoPow]
  cases b.getLsbD k with
  | true => exact beq_self_eq_true _
  | false => exact beq_eq_false_iff_ne.2 (twoPow_ne_zero k).symm

/-- The second half of the edge test: the masked line is 0. -/
theorem and_twoPow_eq_zero (b : Byte) (k : Fin 8) : (b &&& BitVec.twoPow 8 k == 0) = !b.getLsbD k := by
  rw [BitVec.and_twoPow]
  cases b.getLsbD k with
  | true => exact beq_eq_false_iff_ne.2 (twoPow_ne_zero k)
  | false => exact beq_self_eq_true _

/-- The edge test of a one-bit mask in the bits of that line (40_edge_scanner.md R100). -/
theorem edge_twoPow (prev cur : Byte) (k : Fin 8) :
    edge prev cur (BitVec.twoPow 8 k) = (prev.getLsbD k && !cur.getLsbD k) := by
  rw [edge, and_twoPow_eq_mask, and_twoPow_eq_zero]

theorem drdyMask_eq_twoPow : drdyMask = BitVec.twoPow 8 (7 : Fin 8) := by decide

theorem clkMask_eq_twoPow : clkMask = BitVec.twoPow 8 (6 : Fin 8) := by decide

/-- DRDY_FALL in the bits of line 7 (40_edge_scanner.md R101). -/
theorem isDrdyFall_eq_bits (prev cur : Byte) : isDrdyFall prev cur = (prev.getLsbD 7 && !cur.getLsbD 7) := by
  rw [isDrdyFall, drdyMask_eq_twoPow]
  exact edge_twoPow prev cur 7

/-- CLK_EDGE in the bits of line 6 (40_edge_scanner.md R102). -/
theorem isClkEdge_eq_bits (prev cur : Byte) : isClkEdge prev cur = (prev.getLsbD 6 && !cur.getLsbD 6) := by
  rw [isClkEdge, clkMask_eq_twoPow]
  exact edge_twoPow prev cur 6

/-- Settles O12: masking by one bit leaves the mask or 0, so the two halves of the test read that line in the two bytes;
DRDY and CLK are the masks of bits 7 and 6. -/
theorem edgeIsOneToZero : Obligations.EdgeIsOneToZero :=
  fun prev cur => ⟨edge_twoPow prev cur, isDrdyFall_eq_bits prev cur, isClkEdge_eq_bits prev cur⟩

end Sys2Proof.Machine
end

section
/-! SUPPORT. The statements of the Channel Word Assembler (41_word_assembler.md): header, SIGN and DATA edges, CLK_STEP,
and the word a group leaves. -/

namespace Sys2Proof.Machine

/-! ### One edge -/

/-- Settles O19: HDR writes no register and does not look at its byte. -/
theorem hdrChangesNothing : Obligations.HdrChangesNothing := fun _ _ _ => rfl

/-- Settles O20: each word of the group is one lane of SIGN, which is decided by the line's bit. -/
theorem signPreloadsGroup : Obligations.SignPreloadsGroup := by
  intro s n b
  refine ⟨s.signEdge n b, rfl, rfl, fun i => ?_⟩
  rw [readW_signEdge, signLane_eq _ _ _ (Nat.mod_lt _ (by decide)), ite_and, slotGroup]

/-- Settles O21: the two rows share DATA, and each word of the group is one lane of it. -/
theorem dataAccumulatesBit : Obligations.DataAccumulatesBit := by
  intro s n b
  refine ⟨s.dataEdge n b, rfl, rfl, rfl, fun i => ?_⟩
  rw [readW_dataEdge, dataLane_eq _ _ _ _ (Nat.mod_lt _ (by decide)), ite_and, slotGroup, dataIndex, slotPos]

/-- Settles O6: the two cases of CLK_STEP, whose bit operation is the one of the edge's position. -/
theorem clkStepCompletesAtEdge127 : Obligations.ClkStepCompletesAtEdge127 := by
  intro s n b
  obtain ⟨hn, hstep⟩ | ⟨hn, hstep⟩ := clkStep_cases s n b
  · exact ⟨fun _ => hstep, fun hne => absurd hn hne⟩
  · exact ⟨fun he => absurd he hn, fun _ => hstep⟩

/-! ### One group -/

/-- `sext_24_32` is the sign extension of the library (00_scope.md R13). -/
theorem sext24_eq_signExtend (v : BitVec 24) : sext24 v = v.signExtend 32 := by
  apply BitVec.eq_of_getLsbD_eq
  intro j hj
  rw [getLsbD_sext24 v j hj, BitVec.getLsbD_signExtend, decide_eq_true hj, Bool.true_and, BitVec.msb_eq_getLsbD_last]

/-- The signed reading of a sample (41_word_assembler.md R118). -/
theorem toInt_sext24 (v : BitVec 24) :
    (sext24 v).toInt = v.toNat - (if v.getLsbD 23 then 2 ^ 24 else 0) := by
  rw [sext24_eq_signExtend, BitVec.toInt_signExtend_of_le (by decide), BitVec.toInt_eq_msb_cond,
    BitVec.msb_eq_getLsbD_last]
  split <;> simp

/-- The range of a sample (41_word_assembler.md R118). -/
theorem toInt_sext24_range (v : BitVec 24) : -8388608 ≤ (sext24 v).toInt ∧ (sext24 v).toInt ≤ 8388607 := by
  rw [sext24_eq_signExtend, BitVec.toInt_signExtend_of_le (by decide)]
  have hlow := BitVec.le_toInt v
  have hhigh := BitVec.toInt_lt (x := v)
  omega

/-- The slot of line `k` in group `g` (41_word_assembler.md R110). -/
def groupSlot (g : Fin 4) (k : Fin 6) : Fin 24 := ⟨6 * g.val + k.val, by omega⟩

theorem groupSlot_div (g : Fin 4) (k : Fin 6) : (groupSlot g k).val / 6 = g.val := by
  simp only [groupSlot]; omega

theorem groupSlot_mod (g : Fin 4) (k : Fin 6) : (groupSlot g k).val % 6 = k.val := by
  simp only [groupSlot]; omega

/-- The `j`-th of the 24 SIGN and DATA edges of group `g`, with its byte (41_word_assembler.md R110). -/
def State.groupEdge (g : Fin 4) (bytes : Fin 24 → Byte) (s : State) (j : Fin 24) : State :=
  s.bitEdge (BitVec.ofNat 7 (32 * g.val + 8 + j.val)) (bytes j)

/-- The state after all 24 of them. -/
def State.groupEdges (s : State) (g : Fin 4) (bytes : Fin 24 → Byte) : State :=
  (List.finRange 24).foldl (State.groupEdge g bytes) s

/-- The sample that line `k` carries in those bytes, most significant bit first (41_word_assembler.md R118). -/
def lineSample (bytes : Fin 24 → Byte) (k : Fin 6) : BitVec 24 :=
  BitVec.ofFnLE fun c : Fin 24 => (bytes ⟨23 - c.val, by omega⟩).getLsbD (lineShift k)

/-- The byte after an edge of the group carries the data bit of that edge. -/
theorem getLsbD_lineSample (bytes : Fin 24 → Byte) (k : Fin 6) (j : Fin 24) :
    (lineSample bytes k).getLsbD (23 - j.val) = (bytes j).getLsbD (lineShift k) := by
  rw [lineSample, BitVec.getLsbD_ofFnLE, dif_pos (by omega)]
  congr 2
  exact Fin.ext (by simp only; omega)

/-- The `j`-th of those edges gives a word of the group its `j`-th data bit. -/
theorem holdsBits_groupEdge (x : State) (g : Fin 4) (bytes : Fin 24 → Byte) (k : Fin 6) (j : Fin 24)
    (h : HoldsBits (x.readW (groupSlot g k)) j.val (lineSample bytes k).getLsbD) :
    HoldsBits ((State.groupEdge g bytes x j).readW (groupSlot g k)) (j.val + 1) (lineSample bytes k).getLsbD := by
  have hn : (BitVec.ofNat 7 (32 * g.val + 8 + j.val)).toNat = 32 * g.val + 8 + j.val := by
    rw [BitVec.toNat_ofNat]; omega
  have hpos : (32 * g.val + 8 + j.val) % 32 - 8 = j.val := by omega
  have hbit : 31 - (32 * g.val + 8 + j.val) % 32 = 23 - j.val := by omega
  obtain ⟨hnow, hnext⟩ := dataEdgesBefore_within g.val (32 * g.val + 8 + j.val) (by omega) (by omega)
  have hstep := holdsBits_bitEdge x (BitVec.ofNat 7 (32 * g.val + 8 + j.val)) (bytes j) (groupSlot g k)
    (lineSample bytes k).getLsbD
  simp only [hn, groupSlot_div, groupSlot_mod, Fin.eta, hnow, hnext, hpos, hbit] at hstep
  exact hstep (fun _ _ => getLsbD_lineSample bytes k j) h

/-- A word that was 0 before the group holds all 24 bits of its line after it: one bit more at each edge. -/
theorem holdsBits_groupEdges (s : State) (g : Fin 4) (bytes : Fin 24 → Byte) (k : Fin 6)
    (h : s.readW (groupSlot g k) = 0) :
    HoldsBits ((s.groupEdges g bytes).readW (groupSlot g k)) 24 (lineSample bytes k).getLsbD := by
  have hstart : HoldsBits (s.readW (groupSlot g k)) 0 (lineSample bytes k).getLsbD := by
    rw [h]
    exact holdsBits_zero _
  have hend := foldl_finRange_induction (State.groupEdge g bytes)
    (fun q x => HoldsBits (x.readW (groupSlot g k)) q (lineSample bytes k).getLsbD) s hstart
    fun j x => holdsBits_groupEdge x g bytes k j
  exact hend

/-- The word a group leaves (41_word_assembler.md R118). -/
theorem readW_groupEdges (s : State) (g : Fin 4) (bytes : Fin 24 → Byte) (k : Fin 6)
    (h : s.readW (groupSlot g k) = 0) :
    (s.groupEdges g bytes).readW (groupSlot g k) = sext24 (lineSample bytes k) :=
  (holdsBits_groupEdges s g bytes k h).eq_sext24 _ fun _ _ => rfl

/-- Settles O23: the word is `sext24` of the line's sample, and the rest is what `sext24` does by the sign bit. -/
theorem groupWordIsSignExtended : Obligations.GroupWordIsSignExtended := by
  intro s g bytes k h x v
  have hword : x = sext24 v := readW_groupEdges s g bytes k h
  rw [hword]
  refine ⟨rfl, fun hpos => ?_, fun hneg => if_pos hneg, toInt_sext24 v, toInt_sext24_range v⟩
  exact if_neg (Bool.eq_false_iff.1 hpos)

end Sys2Proof.Machine
end

section
/-! SUPPORT. The statements of the Sample Emitter (42_sample_emitter.md): the remap and its inverse, and the record that
EMIT appends. -/

namespace Sys2Proof.Machine

/-! ### The remap -/

/-- The slot of a channel in its group `i mod 4` and line `i div 4` (42_sample_emitter.md R126). -/
theorem remapSlot_val (i : Fin 24) : (remapSlot i).val = 6 * (i.val % 4) + i.val / 4 := by
  simp only [remapSlot]; omega

/-- The channel of a slot, the inverse that 42_sample_emitter.md R126 gives. -/
def slotChannel (j : Fin 24) : Fin 24 := ⟨4 * (j.val % 6) + j.val / 6, by omega⟩

theorem slotChannel_val (j : Fin 24) : (slotChannel j).val = 4 * (j.val % 6) + j.val / 6 := rfl

/-- The line `i div 4` is below 6, so the slot's quotient and remainder by 6 are the channel's group and line. -/
theorem slotChannel_remapSlot : Function.LeftInverse slotChannel remapSlot := by
  intro i
  apply Fin.ext
  rw [slotChannel_val, remapSlot_val]
  omega

/-- The group `j div 6` is below 4, so the channel's quotient and remainder by 4 are the slot's line and group. -/
theorem remapSlot_slotChannel : Function.RightInverse slotChannel remapSlot := by
  intro j
  apply Fin.ext
  rw [remapSlot_val, slotChannel_val]
  omega

/-- Settles O25: the formula is the model's own, and the inverse undoes it on both sides. -/
theorem remapIsBijection : Obligations.RemapIsBijection :=
  ⟨fun i => ⟨rfl, remapSlot_val i, congrArg Fin.val (slotChannel_remapSlot i)⟩,
    slotChannel_remapSlot.injective, remapSlot_slotChannel.surjective⟩

/-! ### The record -/

/-- Appending nothing for the elements that fail a test is appending for the others alone. -/
theorem flatMap_ite_nil {α β : Type} (p : α → Bool) (f : α → List β) (l : List α) :
    (l.flatMap fun a => if p a then f a else []) = (l.filter p).flatMap f := by
  induction l with
  | nil => rfl
  | cons a l ih =>
    rw [List.flatMap_cons, ih, List.filter_cons]
    split
    · rw [List.flatMap_cons]
    · rw [List.nil_append]

/-- The record as the words of the enabled channels alone, in ascending order (30_encoding.md R78). -/
theorem record_eq_flatMap_filter (en : BitVec 24) (w : Vector Word 24) :
    record en w =
      ((List.finRange 24).filter fun (i : Fin 24) => en.getLsbD i).flatMap fun i => le32 w[remapSlot i] :=
  flatMap_ite_nil _ _ _

/-- EMIT in the state's own operation (42_sample_emitter.md R127). -/
theorem exec_emit (s : State) : exec .emit s = .next s.emitRecord := rfl

/-- Settles O26: EMIT appends the record, and the record skips exactly the channels that the filter drops. -/
theorem emitAppendsRecord : Obligations.EmitAppendsRecord := by
  intro s r
  have hrec : record s.en s.w = r := record_eq_flatMap_filter s.en s.w
  rw [exec_emit, State.emitRecord, hrec]

end Sys2Proof.Machine
end

section
/-! SUPPORT. The statements of the Batch Decoder (43_batch_decoder.md): FSTEP by the event that SCAN finds, and the output
of a truncated buffer. -/

namespace Sys2Proof.Machine

/-! ### FSTEP, by the event SCAN finds (43_batch_decoder.md R137) -/

theorem fstep_of_first {s : State} {b : Byte} (h : s.scan b = .first) : s.fstep b = s.shiftIn b := by
  simp only [State.fstep, h]

theorem fstep_of_drdyFall {s : State} {b : Byte} (h : s.scan b = .drdyFall) :
    s.fstep b = s.frameStart.shiftIn b := by
  simp only [State.fstep, h]

theorem fstep_of_clkEdge {s : State} {b : Byte} {n : BitVec 7} (h : s.scan b = .clkEdge n) :
    s.fstep b = (s.clkStep n b).shiftIn b := by
  simp only [State.fstep, h]

theorem fstep_of_noEdge {s : State} {b : Byte} (h : s.scan b = .noEdge) : s.fstep b = s.shiftIn b := by
  simp only [State.fstep, h]

theorem isDrdyFall_eq_false {p c : Byte} (h : ¬ (p &&& 0x80 = 0x80 ∧ c &&& 0x80 = 0)) : isDrdyFall p c = false :=
  Bool.eq_false_iff.2 (mt (isDrdyFall_iff p c).1 h)

theorem isClkEdge_eq_false {p c : Byte} (h : ¬ (p &&& 0x40 = 0x40 ∧ c &&& 0x40 = 0)) : isClkEdge p c = false :=
  Bool.eq_false_iff.2 (mt (isClkEdge_iff p c).1 h)

/-- Settles O5: PUSH is FSTEP, each case's premises fix what SCAN finds, and that event fixes the next state. -/
theorem pushInFullMode : Obligations.PushInFullMode := by
  intro s b hactive hmode
  rw [execPush_full s b hactive hmode]
  refine ⟨fun hv => ?first, fun hv hc he => ?frameStart, fun hv hc he => ?noFrameStart, fun n hv hc he => ?clkEdge,
    fun n hv hc he => ?noClkEdge⟩
  case first =>
    exact congrArg _ (fstep_of_first (scanPair_first _ _ _ _ hv))
  case frameStart =>
    exact congrArg _ (fstep_of_drdyFall (scanPair_drdyFall _ _ _ _ hv hc ((isDrdyFall_iff _ _).2 he)))
  case noFrameStart =>
    exact congrArg _ (fstep_of_noEdge (scanPair_no_drdyFall _ _ _ _ hv hc (isDrdyFall_eq_false he)))
  case clkEdge =>
    exact congrArg _ (fstep_of_clkEdge (scanPair_clkEdge _ _ _ _ n hv hc ((isClkEdge_iff _ _).2 he)))
  case noClkEdge =>
    exact congrArg _ (fstep_of_noEdge (scanPair_no_clkEdge _ _ _ _ n hv hc (isClkEdge_eq_false he)))

/-! ### The output of a run of bytes -/

/-- CLK_STEP emits at edge 127 alone, the record of the words with that edge's bits (41_word_assembler.md R115). -/
theorem clkStep_out (s : State) (n : BitVec 7) (b : Byte) :
    (s.clkStep n b).out = s.out ++ if n = 127 then record s.en (s.bitEdge n b).w else [] := by
  obtain ⟨hn, h⟩ | ⟨hn, h⟩ := clkStep_cases s n b
  · rw [h, if_pos hn]; simp
  · rw [h, if_neg hn]; simp [State.countEdge]

/-- A byte emits nothing or one record (43_batch_decoder.md R137). -/
theorem fstep_out (s : State) (b : Byte) :
    (s.fstep b).out = s.out ∨ ∃ w, (s.fstep b).out = s.out ++ record s.en w := by
  obtain h | ⟨-, -, -, h⟩ | ⟨-, -, n, -, h⟩ := fstep_cases s b <;> rw [h, State.shiftIn_out]
  · exact .inl rfl
  · exact .inl rfl
  · rw [clkStep_out]
    split
    · exact .inr ⟨_, rfl⟩
    · exact .inl (List.append_nil _)

/-- The bytes fed in one after another append whole records to the output (42_sample_emitter.md R128). -/
theorem feed_out (bytes : List Byte) (s : State) :
    ∃ records, (s.feed bytes).out = s.out ++ records ∧ 4 * countEn s.en ∣ records.length := by
  induction bytes generalizing s with
  | nil => exact ⟨[], (List.append_nil _).symm, dvd_zero _⟩
  | cons b bytes ih =>
    obtain ⟨later, hout, hlen⟩ := ih (s.fstep b)
    rw [State.fstep_en] at hlen
    have hfeed : (s.feed (b :: bytes)).out = (s.fstep b).out ++ later := hout
    obtain hb | ⟨w, hb⟩ := fstep_out s b
    · exact ⟨later, by rw [hfeed, hb], hlen⟩
    · refine ⟨record s.en w ++ later, by rw [hfeed, hb, List.append_assoc], ?_⟩
      rw [List.length_append, record_length]
      exact dvd_add dvd_rfl hlen

theorem feed_append (first rest : List Byte) (s : State) : s.feed (first ++ rest) = (s.feed first).feed rest :=
  List.foldl_append

/-! ### RUN_BATCH -/

/-- Outside an active session the bytes are lost (46_session_control.md R178). -/
theorem run_pushN_inactive (bytes : List Byte) (s : State) (h : s.sess ≠ .active) : run (pushN bytes) s = .next s := by
  induction bytes with
  | nil => rfl
  | cons b bytes ih =>
    simp only [pushN, List.map_cons, run, execPush_inactive s b h]
    exact ih

/-- RUN_BATCH with no channel enabled: START is rejected and the bytes and the END are lost (43_batch_decoder.md R136). -/
theorem run_runBatch_rejected (buf : List Byte) (s : State) :
    run (runBatch 0 buf) s = .next (s.clearSession.raise .malformedConfiguration) := by
  have hstart : exec (.start 0 0 0 0 0) s = .next (s.clearSession.raise .malformedConfiguration) := rfl
  have hinactive : (s.clearSession.raise .malformedConfiguration).sess ≠ .active := nofun
  rw [runBatch, List.cons_append, run, hstart]
  dsimp only
  rw [run_append, run_pushN_inactive _ _ hinactive]
  rfl

/-- Settles O44: with no channel enabled both runs emit nothing; otherwise START gives both runs the same state, and the
longer one's output is what the shorter one's bytes emit with what the rest appends to it. -/
theorem truncationGivesPrefix : Obligations.TruncationGivesPrefix := by
  intro en buf rest s
  by_cases hen : en = 0
  · subst hen
    exact ⟨_, _, run_runBatch_rejected buf s, run_runBatch_rejected (buf ++ rest) s, List.prefix_rfl, dvd_zero _⟩
  · refine ⟨_, _, run_runBatch en buf s hen, run_runBatch en (buf ++ rest) s hen, ?isPrefix, ?wholeRecords⟩
    case isPrefix =>
      obtain ⟨later, hout, -⟩ := feed_out rest ((s.clearSession.openSession .batch en 0 0 0).feed buf)
      rw [← feed_append] at hout
      exact ⟨later, hout.symm⟩
    case wholeRecords =>
      obtain ⟨records, hout, hlen⟩ := feed_out buf (s.clearSession.openSession .batch en 0 0 0)
      have hall : ((s.clearSession.openSession .batch en 0 0 0).feed buf).out = records := hout
      rw [← hall] at hlen
      exact hlen

end Sys2Proof.Machine
end

section
/-! SUPPORT. The statements of the Streaming Decoder (44_streaming_decoder.md): runs of bytes can be cut anywhere, and what
FSTEP does depends on the decoder's registers alone, so a STREAM session decodes what RUN_BATCH decodes. -/

namespace Sys2Proof.Machine

/-! ### Runs of bytes, cut (R148) -/

/-- A run whose first part completes goes on from the state that part leaves (20_memory.md R61). -/
theorem run_append_of_next {a : List Instr} {s t : State} (h : run a s = .next t) (b : List Instr) :
    run (a ++ b) s = run b t := by
  rw [run_append, h]

theorem pushN_append (first rest : List Byte) : pushN (first ++ rest) = pushN first ++ pushN rest :=
  List.map_append

theorem run_singleton (i : Instr) (s : State) : run [i] s = exec i s := by
  unfold run
  cases exec i s <;> rfl

/-- NOPs, as while a chunk read is outstanding, leave the state as it is (46_session_control.md R172). -/
theorem run_replicate_nop (k : Nat) (s : State) : run (List.replicate k .nop) s = .next s := by
  induction k with
  | zero => rfl
  | succ k ih => exact ih

/-- PUSH gives a next state in every state (43_batch_decoder.md R140). -/
theorem execPush_completes (s : State) (b : Byte) : ∃ t, exec (.push b) s = .next t := by
  by_cases hactive : s.sess = .active
  · obtain ⟨t, ht, -⟩ := execPush_active s b hactive
    exact ⟨t, ht⟩
  · exact ⟨s, execPush_inactive s b hactive⟩

theorem run_pushN_completes (bytes : List Byte) (s : State) : ∃ t, run (pushN bytes) s = .next t := by
  induction bytes generalizing s with
  | nil => exact ⟨s, rfl⟩
  | cons b bytes ih =>
    obtain ⟨t, ht⟩ := execPush_completes s b
    obtain ⟨x, hx⟩ := ih t
    refine ⟨x, ?_⟩
    rw [← hx]
    exact run_append_of_next ((run_singleton _ s).trans ht) (pushN bytes)

/-- Chunks with NOPs after them run as their bytes (R148). -/
theorem run_chunks (chunks : List (List Byte × Nat)) (s : State) :
    run (chunks.flatMap fun c => pushN c.1 ++ List.replicate c.2 .nop) s = run (pushN (chunks.flatMap Prod.fst)) s := by
  induction chunks generalizing s with
  | nil => rfl
  | cons c chunks ih =>
    obtain ⟨t, ht⟩ := run_pushN_completes c.1 s
    rw [List.flatMap_cons, List.flatMap_cons, List.append_assoc, pushN_append, run_append_of_next ht,
      run_append_of_next ht, run_append_of_next (run_replicate_nop c.2 t)]
    exact ih t

/-- A run of bytes that leaves the session active has its last byte in `prev`: an earlier byte that ended a THRESH session
would have left it ended, since the bytes after it are lost (46_session_control.md R178). -/
theorem run_pushN_prev {first : List Byte} {last : Byte} {s t : State} (h : run (pushN (first ++ [last])) s = .next t)
    (hactive : t.sess = .active) : t.prev = last ∧ t.prevValid = true := by
  obtain ⟨u, hu⟩ := run_pushN_completes first s
  have hlast : exec (.push last) u = .next t := by
    rw [pushN_append, run_append_of_next hu] at h
    exact (run_singleton _ u).symm.trans h
  by_cases hbefore : u.sess = .active
  · obtain ⟨t', ht', hprev, hvalid, -⟩ := execPush_active u last hbefore
    obtain rfl : t' = t := Host.Outcome.next.inj (ht'.symm.trans hlast)
    exact ⟨hprev, hvalid⟩
  · obtain rfl : u = t := Host.Outcome.next.inj ((execPush_inactive u last hbefore).symm.trans hlast)
    exact absurd hactive hbefore

/-- Settles O42: bytes always complete, so a run of them resumes from the state that a cut leaves, and the NOPs between
chunks do not change that state. -/
theorem chunkBoundariesInvisible : Obligations.ChunkBoundariesInvisible := by
  refine ⟨run_chunks, fun first rest last s hactive => ?cut⟩
  case cut =>
    obtain ⟨t, ht⟩ := run_pushN_completes (first ++ [last]) s
    refine ⟨t, ht, ?resumes, run_pushN_prev ht, fun hmode => ?staysActive⟩
    case resumes =>
      rw [pushN_append]
      exact run_append_of_next ht _
    case staysActive =>
      obtain rfl : s.feed (first ++ [last]) = t :=
        Host.Outcome.next.inj ((run_pushN_full _ s hactive hmode).symm.trans ht)
      exact (feed_keeps _ s).1.trans hactive

/-! ### The registers that FSTEP reads and writes (43_batch_decoder.md R137) -/

/-- Two states with the same decoder: the same value in each register that FSTEP depends on. The mode and the earlier
session's leftovers may differ. -/
structure State.SameDecoder (s t : State) : Prop where
  w : s.w = t.w
  cc : s.cc = t.cc
  prev : s.prev = t.prev
  prevValid : s.prevValid = t.prevValid
  en : s.en = t.en
  out : s.out = t.out

namespace State.SameDecoder

variable {s t : State}

theorem shiftIn (h : s.SameDecoder t) (b : Byte) : (s.shiftIn b).SameDecoder (t.shiftIn b) :=
  ⟨h.w, h.cc, rfl, rfl, h.en, h.out⟩

theorem frameStart (h : s.SameDecoder t) : s.frameStart.SameDecoder t.frameStart :=
  ⟨h.w, rfl, h.prev, h.prevValid, h.en, h.out⟩

theorem countEdge (h : s.SameDecoder t) (n : BitVec 7) : (s.countEdge n).SameDecoder (t.countEdge n) :=
  ⟨h.w, rfl, h.prev, h.prevValid, h.en, h.out⟩

theorem endFrame (h : s.SameDecoder t) : s.endFrame.SameDecoder t.endFrame :=
  ⟨rfl, rfl, h.prev, h.prevValid, h.en, h.out⟩

theorem emitRecord (h : s.SameDecoder t) : s.emitRecord.SameDecoder t.emitRecord where
  w := h.w
  cc := h.cc
  prev := h.prev
  prevValid := h.prevValid
  en := h.en
  out := by rw [State.emitRecord_out, State.emitRecord_out, h.out, h.en, h.w]

theorem bitEdge (h : s.SameDecoder t) (n : BitVec 7) (b : Byte) : (s.bitEdge n b).SameDecoder (t.bitEdge n b) where
  w := w_ext fun i => by rw [readW_bitEdge, readW_bitEdge, readW_eq_of_w h.w]
  cc := by simpa using h.cc
  prev := by simpa using h.prev
  prevValid := by simpa using h.prevValid
  en := by simpa using h.en
  out := by simpa using h.out

/-- CLK_STEP completes the frame of both states or counts the edge in both (41_word_assembler.md R115). -/
theorem clkStep (h : s.SameDecoder t) (n : BitVec 7) (b : Byte) : (s.clkStep n b).SameDecoder (t.clkStep n b) := by
  unfold State.clkStep
  split
  · exact (h.bitEdge n b).emitRecord.endFrame
  · exact (h.bitEdge n b).countEdge n

/-- SCAN finds the same event in both states (40_edge_scanner.md R104). -/
theorem scan (h : s.SameDecoder t) (b : Byte) : s.scan b = t.scan b := by
  unfold State.scan
  rw [h.prevValid, h.cc, h.prev]

theorem fstep (h : s.SameDecoder t) (b : Byte) : (s.fstep b).SameDecoder (t.fstep b) := by
  have ht := (h.scan b).symm
  cases hs : s.scan b with
  | first =>
    rw [fstep_of_first hs, fstep_of_first (ht.trans hs)]
    exact h.shiftIn b
  | drdyFall =>
    rw [fstep_of_drdyFall hs, fstep_of_drdyFall (ht.trans hs)]
    exact h.frameStart.shiftIn b
  | clkEdge n =>
    rw [fstep_of_clkEdge hs, fstep_of_clkEdge (ht.trans hs)]
    exact (h.clkStep n b).shiftIn b
  | noEdge =>
    rw [fstep_of_noEdge hs, fstep_of_noEdge (ht.trans hs)]
    exact h.shiftIn b

theorem feed (h : s.SameDecoder t) (bytes : List Byte) : (s.feed bytes).SameDecoder (t.feed bytes) := by
  induction bytes generalizing s t with
  | nil => exact h
  | cons b bytes ih => exact ih (h.fstep b)

end State.SameDecoder

/-! ### A session of bytes in BATCH and in STREAM mode (R151) -/

/-- START clears the decoder and `out` before it opens the session, so sessions of one enable set begin with the same
decoder, whatever their modes and the states before them (46_session_control.md R173). -/
theorem sameDecoder_openSession (s u : State) (m m' : Mode) (en : BitVec 24) :
    (s.clearSession.openSession m en 0 0 0).SameDecoder (u.clearSession.openSession m' en 0 0 0) :=
  ⟨rfl, rfl, rfl, rfl, rfl, rfl⟩

/-- With a channel enabled START latches BATCH and STREAM (46_session_control.md R174). -/
theorem acceptedMode_of_full {md : Mode} {en : BitVec 24} (hfull : md ≠ .thresh) (hen : en ≠ 0) (t : BitVec 5) :
    acceptedMode md.code en t = some md := by
  have hvalid : valid md.code en t = true := by
    cases md with
    | batch => simpa [valid, Mode.code] using hen
    | stream => simpa [valid, Mode.code] using hen
    | thresh => exact absurd rfl hfull
  rw [acceptedMode, if_pos hvalid, mode_ofCode_code]

/-- A START of BATCH or STREAM with a channel enabled opens the session, which then decodes the bytes
(46_session_control.md R173, R175). -/
theorem run_start_pushN {md : Mode} {en : BitVec 24} (hfull : md ≠ .thresh) (hen : en ≠ 0) (buf : List Byte) (s : State) :
    run (.start md.code en 0 0 0 :: pushN buf) s = .next ((s.clearSession.openSession md en 0 0 0).feed buf) := by
  have hstart : exec (.start md.code en 0 0 0) s = .next (s.clearSession.openSession md en 0 0 0) := by
    simp only [exec, execStart, acceptedMode_of_full hfull hen]
    exact congrArg _ (if_neg fun hzero => hfull hzero.1)
  calc run (.start md.code en 0 0 0 :: pushN buf) s
      = run (pushN buf) (s.clearSession.openSession md en 0 0 0) :=
        run_append_of_next ((run_singleton _ s).trans hstart) (pushN buf)
    _ = .next ((s.clearSession.openSession md en 0 0 0).feed buf) := run_pushN_full buf _ rfl hfull

/-- Settles O43: both sessions begin with the same decoder, which the bytes keep the same; END clears the batch session's
decoder and keeps its output. -/
theorem streamEqualsBatch : Obligations.StreamEqualsBatch := by
  intro en buf s u hen
  have hstream := run_start_pushN (md := .stream) nofun hen buf s
  have hbatch := run_start_pushN (md := .batch) nofun hen buf u
  have hsame := (sameDecoder_openSession s u .stream .batch en).feed buf
  have hactive := (feed_keeps buf (s.clearSession.openSession .stream en 0 0 0)).1
  exact ⟨_, _, hstream, run_runBatch en buf u hen, hsame.out, hactive, rfl, rfl, readW_zero_of_w rfl,
    _, hbatch, hsame.cc, hsame.w⟩

end Sys2Proof.Machine
end

section
/-! SUPPORT. The statements of the Threshold Pre-Scanner (45_threshold_prescanner.md): the operations of one edge, TSTEP by
the event that SCAN finds, and scans that agree whatever the earlier state held. -/

namespace Sys2Proof.Machine

/-! ### One edge -/

/-- Settles O28: TSKIP writes no register and does not look at its byte. -/
theorem tskipChangesNothing : Obligations.TskipChangesNothing := fun _ _ _ _ => rfl

/-- A legal target names one of the six wired lines (R156). -/
theorem targetLine_lt {t : BitVec 5} (h : t.toNat < 24) : targetLine t < 6 := by
  unfold targetLine
  omega

theorem exec_tsign (t : BitVec 5) (b : Byte) (s : State) :
    exec (.tsign t b) s = .next { s with acc := signLane b (targetLine t) s.acc } := rfl

/-- Settles O29: TSIGN is one lane of SIGN on the accumulator, which is decided by the bit of the target's line. -/
theorem tsignPreloadsAccumulator : Obligations.TsignPreloadsAccumulator := by
  intro s t b h
  rw [exec_tsign, signLane_eq b (targetLine t) s.acc (targetLine_lt h)]
  rfl

theorem exec_tdata (t : BitVec 5) (n : BitVec 7) (b : Byte) (s : State) :
    exec (.tdata t n b) s = .next { s with acc := s.acc ||| targetContrib t n b } := rfl

/-- At an edge of the target's word, what TDATA does to the accumulator is one lane of DATA (R159). -/
theorem or_targetContrib {t : BitVec 5} {n : BitVec 7} (b : Byte) (x : Word) (hlow : clockSkip t ≤ n.toNat)
    (hhigh : n.toNat ≤ clockSkip t + 23) :
    x ||| targetContrib t n b = dataLane b (23 - (n.toNat - clockSkip t)) (targetLine t) x := by
  have hindex : clockSkip t + 23 - n.toNat = 23 - (n.toNat - clockSkip t) := by omega
  rw [targetContrib, if_pos hhigh, hindex, dataLane]

/-- Settles O30: TDATA is one lane of DATA on the accumulator, which is decided by the bit of the target's line. -/
theorem tdataAccumulatesBit : Obligations.TdataAccumulatesBit := by
  intro s t n b h hlow hhigh
  rw [exec_tdata, or_targetContrib b s.acc hlow.le hhigh, dataLane_eq b _ (targetLine t) s.acc (targetLine_lt h)]
  rfl

theorem exec_tcmp (t : BitVec 5) (s : State) : exec (.tcmp t) s = .next s.targetCompare := rfl

/-- The comparison of TCMP is signed, greater-or-equal (R160). -/
theorem reaches_iff (s : State) : s.reaches = true ↔ s.thr.toInt ≤ s.acc.toInt := by
  simp [State.reaches]

/-- Settles O31: TCMP triggers or re-arms, and the signed comparison says which. -/
theorem tcmpTriggersOrRearms : Obligations.TcmpTriggersOrRearms := by
  intro s t
  rw [exec_tcmp]
  obtain ⟨hreach, htrigger⟩ | ⟨hreach, hrearm⟩ := targetCompare_cases s
  · have hle := (reaches_iff s).1 hreach
    exact ⟨fun _ => congrArg _ htrigger, fun hlt => absurd hle (not_le.2 hlt)⟩
  · have hnle := mt (reaches_iff s).2 (Bool.eq_false_iff.1 hreach)
    exact ⟨fun hle => absurd hle hnle, fun _ => congrArg _ hrearm⟩

/-! ### TSTEP, by the event SCAN finds (R161) -/

theorem targetByte_of_first {s : State} {b : Byte} (h : s.scan b = .first) :
    s.targetByte b = { s with scanned := s.scannedNext }.shiftIn b := by
  simp only [State.targetByte, h]

theorem targetByte_of_drdyFall {s : State} {b : Byte} (h : s.scan b = .drdyFall) :
    s.targetByte b = { s with scanned := s.scannedNext }.frameStart.shiftIn b := by
  simp only [State.targetByte, h]

theorem targetByte_of_clkEdge {s : State} {b : Byte} {n : BitVec 7} (h : s.scan b = .clkEdge n) :
    s.targetByte b = ({ s with scanned := s.scannedNext }.targetStep n b).shiftIn b := by
  simp only [State.targetByte, h]

theorem targetByte_of_noEdge {s : State} {b : Byte} (h : s.scan b = .noEdge) :
    s.targetByte b = { s with scanned := s.scannedNext }.shiftIn b := by
  simp only [State.targetByte, h]

/-- Before the completing edge the counter goes up by one: that edge is 127 at the latest, so 127 is not passed. -/
theorem targetCount_of_lt {t : BitVec 5} {n : BitVec 7} (b : Byte) (h : n.toNat < clockSkip t + 23) :
    targetCount t n b = some (n + 1) := by
  have hlast : n ≠ 127 := by
    rintro rfl
    have hle := clockSkip_le t
    have h127 : (127 : BitVec 7).toNat = 127 := rfl
    omega
  exact if_neg hlast

/-- The CLK branch of TSTEP at an edge the scanner consumes. -/
theorem targetStep_of_le {s : State} {n : BitVec 7} (b : Byte) (h : n.toNat ≤ clockSkip s.tch + 23) :
    s.targetStep n b =
      if n.toNat = clockSkip s.tch + 23 then (s.targetBit n b).targetCompare
      else { s.targetBit n b with cc := some (n + 1) } := by
  obtain ⟨hn, hstep⟩ | ⟨hn, hstep⟩ := targetStep_cases s n b
  · rw [hstep, if_pos hn]
  · rw [hstep, if_neg hn, targetCount_of_lt b (lt_of_le_of_ne h hn)]

/-- Settles O7: PUSH is TSTEP, whose budget check is the last step of the statement; before it, what SCAN finds fixes the
state the byte leaves. -/
theorem pushInThreshMode : Obligations.PushInThreshMode := by
  intro s b hactive hmode _ hbudget hrange counted decoded shifted
  have hcount : { s with scanned := s.scannedNext } = counted := by rw [(scannedNext_of_lt s hbudget).1]
  have hbyte : s.targetByte b = decoded.shiftIn b := by
    obtain ⟨hv, hscan⟩ | ⟨hv, hc, he, hscan⟩ | ⟨hv, hc, he, hscan⟩ | ⟨hv, n, hc, he, hscan⟩ | ⟨hv, n, hc, he, hscan⟩ :=
      scanPair_cases s.prevValid s.cc s.prev b
    -- the first byte
    · have hdecoded : decoded = counted := if_pos hv
      rw [targetByte_of_first hscan, hcount, hdecoded]
    -- a frame start
    · have hdecoded : decoded = counted.frameStart := by
        simp only [decoded, hv, hc, if_pos ((isDrdyFall_iff _ _).1 he)]
        rfl
      rw [targetByte_of_drdyFall hscan, hcount, hdecoded]
    -- no frame start
    · have hpair := mt (isDrdyFall_iff _ _).2 (Bool.eq_false_iff.1 he)
      have hdecoded : decoded = counted := by
        simp only [decoded, hv, hc, if_neg hpair]
        rfl
      rw [targetByte_of_noEdge hscan, hcount, hdecoded]
    -- a CLK edge, within the range of the counter
    · have hdecoded : decoded = counted.targetStep n b := by
        rw [targetStep_of_le (s := counted) b (hrange n hc)]
        simp only [decoded, hv, hc, if_pos ((isClkEdge_iff _ _).1 he)]
        rfl
      rw [targetByte_of_clkEdge hscan, hcount, hdecoded]
    -- no CLK edge
    · have hpair := mt (isClkEdge_iff _ _).2 (Bool.eq_false_iff.1 he)
      have hdecoded : decoded = counted := by
        simp only [decoded, hv, hc, if_neg hpair]
        rfl
      rw [targetByte_of_noEdge hscan, hcount, hdecoded]
  rw [execPush_thresh s b hactive hmode, State.tstep, hbyte]
  rfl

/-! ### Scans that agree (R166) -/

theorem run_cons_of_next {i : Instr} {s t : State} (h : exec i s = .next t) (rest : List Instr) :
    run (i :: rest) s = run rest t :=
  run_append_of_next ((run_singleton i s).trans h) rest

/-- The scanner's registers of `s` beside what `u` holds in every register that TSTEP neither reads nor writes. -/
def State.beside (s u : State) : State :=
  { s with w := u.w, err := u.err, en := u.en, out := u.out, emitted := u.emitted, host := u.host, ret := u.ret }

namespace State

variable (s u : State)

theorem targetBit_beside (n : BitVec 7) (b : Byte) : (s.beside u).targetBit n b = (s.targetBit n b).beside u := by
  simp only [targetBit, apply_ite (State.beside · u)]
  rfl

theorem targetCompare_beside : (s.beside u).targetCompare = s.targetCompare.beside u := by
  simp only [targetCompare, apply_ite (State.beside · u)]
  rfl

theorem targetStep_beside (n : BitVec 7) (b : Byte) : (s.beside u).targetStep n b = (s.targetStep n b).beside u := by
  simp only [targetStep, apply_ite (State.beside · u), targetBit_beside, targetCompare_beside]
  rfl

theorem targetByte_beside (b : Byte) : (s.beside u).targetByte b = (s.targetByte b).beside u := by
  have hscan : (s.beside u).scan b = s.scan b := rfl
  cases h : s.scan b with
  | first => rw [targetByte_of_first h, targetByte_of_first (hscan.trans h)]; rfl
  | drdyFall => rw [targetByte_of_drdyFall h, targetByte_of_drdyFall (hscan.trans h)]; rfl
  | clkEdge n =>
    rw [targetByte_of_clkEdge h, targetByte_of_clkEdge (hscan.trans h)]
    exact congrArg (State.shiftIn · b) (targetStep_beside { s with scanned := s.scannedNext } u n b)
  | noEdge => rw [targetByte_of_noEdge h, targetByte_of_noEdge (hscan.trans h)]; rfl

theorem checkBudget_beside : (s.beside u).checkBudget = s.checkBudget.beside u := by
  simp only [checkBudget, apply_ite (State.beside · u)]
  rfl

theorem checkZeroBudget_beside : (s.beside u).checkZeroBudget = s.checkZeroBudget.beside u := by
  simp only [checkZeroBudget, apply_ite (State.beside · u)]
  rfl

theorem tstep_beside (b : Byte) : (s.beside u).tstep b = (s.tstep b).beside u := by
  rw [tstep, targetByte_beside, checkBudget_beside, tstep]

end State

/-- A byte pushed in THRESH mode acts on the scanner alone, whatever stands beside it (R161). -/
theorem execPush_beside {s : State} (u : State) (b : Byte) (hmode : s.mode = .thresh) :
    ∃ x, exec (.push b) s = .next x ∧ exec (.push b) (s.beside u) = .next (x.beside u) ∧ x.mode = .thresh := by
  by_cases hactive : s.sess = .active
  · refine ⟨s.tstep b, execPush_thresh s b hactive hmode, ?_, by rw [State.tstep_mode, hmode]⟩
    rw [execPush_thresh (s.beside u) b hactive hmode, State.tstep_beside]
  · exact ⟨s, execPush_inactive s b hactive, execPush_inactive (s.beside u) b hactive, hmode⟩

theorem run_pushN_beside (buf : List Byte) {s : State} (u : State) (hmode : s.mode = .thresh) :
    ∃ x, run (pushN buf) s = .next x ∧ run (pushN buf) (s.beside u) = .next (x.beside u) := by
  induction buf generalizing s with
  | nil => exact ⟨s, rfl, rfl⟩
  | cons b buf ih =>
    obtain ⟨t, hpush, hpushBeside, htmode⟩ := execPush_beside u b hmode
    obtain ⟨x, hrun, hrunBeside⟩ := ih htmode
    exact ⟨x, (run_cons_of_next hpush _).trans hrun, (run_cons_of_next hpushBeside _).trans hrunBeside⟩

/-- START accepts THRESH for the legal targets, whatever the enable set (46_session_control.md R174). -/
theorem acceptedMode_thresh (e : BitVec 24) (t : BitVec 5) :
    acceptedMode 2 e t = if t.toNat ≤ 23 then some .thresh else none := by
  by_cases h : t.toNat ≤ 23 <;> simp [acceptedMode, valid, Mode.ofCode, h]

theorem exec_start_thresh {t : BitVec 5} (h : t.toNat ≤ 23) (e : BitVec 24) (thr budget : BitVec 32) (s : State) :
    exec (.start 2 e t thr budget) s = .next (s.clearSession.openSession .thresh e t thr budget).checkZeroBudget := by
  simp only [exec, execStart, acceptedMode_thresh, if_pos h]

theorem exec_start_thresh_rejected {t : BitVec 5} (h : ¬ t.toNat ≤ 23) (e : BitVec 24) (thr budget : BitVec 32)
    (s : State) : exec (.start 2 e t thr budget) s = .next (s.clearSession.raise .malformedConfiguration) := by
  simp only [exec, execStart, acceptedMode_thresh, if_neg h]

/-- START clears the scanner, so sessions of one configuration begin with the same scanner, whatever the states before them
and the enable sets (R165). -/
theorem openSession_beside (s u : State) (m : Mode) (e f : BitVec 24) (t : BitVec 5) (thr budget : BitVec 32) :
    (s.clearSession.openSession m e t thr budget).beside (u.clearSession.openSession m f t thr budget) =
      u.clearSession.openSession m f t thr budget := rfl

/-- Settles O45: a rejected START leaves both scanners clear and the bytes are lost; an accepted one leaves the same scanner
beside different backgrounds, which the bytes do not touch. -/
theorem scanForgetsEarlierState : Obligations.ScanForgetsEarlierState := by
  intro e f t thr budget buf s u
  by_cases ht : t.toNat ≤ 23
  case neg =>
    exact ⟨_, _,
      (run_cons_of_next (exec_start_thresh_rejected ht e thr budget s) _).trans (run_pushN_inactive buf _ nofun),
      (run_cons_of_next (exec_start_thresh_rejected ht f thr budget u) _).trans (run_pushN_inactive buf _ nofun),
      rfl, rfl, rfl, rfl, rfl⟩
  case pos =>
    obtain ⟨x, hrun, hrunBeside⟩ :=
      run_pushN_beside buf (u.clearSession.openSession .thresh f t thr budget)
        (State.checkZeroBudget_mode (s.clearSession.openSession .thresh e t thr budget))
    rw [← State.checkZeroBudget_beside, openSession_beside] at hrunBeside
    exact ⟨x, _, (run_cons_of_next (exec_start_thresh ht e thr budget s) _).trans hrun,
      (run_cons_of_next (exec_start_thresh ht f thr budget u) _).trans hrunBeside, rfl, rfl, rfl, rfl, rfl⟩

end Sys2Proof.Machine
end

section
/-! SUPPORT. The statements of the session control (46_session_control.md): START by the mode it accepts, RESET, NOP, END
and ABORT by the session they meet, and the refusal of the reserved codes. -/

namespace Sys2Proof.Machine

/-! ### START, by the mode it accepts (R173, R174) -/

/-- VALID in the terms of R174. -/
theorem valid_iff (m : BitVec 2) (e : BitVec 24) (t : BitVec 5) :
    valid m e t = true ↔ m = 0 ∧ e ≠ 0 ∨ m = 1 ∧ e ≠ 0 ∨ m = 2 ∧ t.toNat ≤ 23 := by
  simp only [valid, Bool.or_eq_true, Bool.and_eq_true, decide_eq_true_eq, or_assoc]

theorem exec_start_of_rejected {m : BitVec 2} {e : BitVec 24} {t : BitVec 5} (h : ¬ valid m e t = true)
    (thr budget : BitVec 32) (s : State) :
    exec (.start m e t thr budget) s = .next (s.clearSession.raise .malformedConfiguration) := by
  simp only [exec, execStart, acceptedMode, if_neg h]

theorem exec_start_of_accepted {m : BitVec 2} {e : BitVec 24} {t : BitVec 5} {md : Mode}
    (h : acceptedMode m e t = some md) (thr budget : BitVec 32) (s : State) :
    exec (.start m e t thr budget) s = .next (s.clearSession.openSession md e t thr budget).checkZeroBudget := by
  simp only [exec, execStart, h]

theorem checkZeroBudget_of_full {s : State} (h : s.mode ≠ .thresh) : s.checkZeroBudget = s :=
  if_neg fun hzero => h hzero.1

theorem checkZeroBudget_of_budget {s : State} (h : s.budget ≠ 0) : s.checkZeroBudget = s :=
  if_neg fun hzero => h hzero.2

theorem checkZeroBudget_of_zero {s : State} (hmode : s.mode = .thresh) (hbudget : s.budget = 0) :
    s.checkZeroBudget = { s with result := .notTriggered, sess := .done } :=
  if_pos ⟨hmode, hbudget⟩

/-- A START of BATCH or STREAM with a channel enabled opens the session, whatever the budget (R173). -/
theorem exec_start_full {md : Mode} {e : BitVec 24} (hfull : md ≠ .thresh) (hen : e ≠ 0) (t : BitVec 5)
    (thr budget : BitVec 32) (s : State) :
    exec (.start md.code e t thr budget) s = .next (s.clearSession.openSession md e t thr budget) := by
  rw [exec_start_of_accepted (acceptedMode_of_full hfull hen t), checkZeroBudget_of_full hfull]

/-- Settles O4: VALID decides between a rejected and an accepted START, and the budget check acts on an accepted one in
THRESH mode with budget 0 alone. -/
theorem startClearsThenValidates : Obligations.StartClearsThenValidates := by
  intro m e t thr budget s cleared
  refine ⟨fun hinvalid => ?rejected, ?batch, ?stream, ?thresh, ?zeroBudget⟩
  case rejected => exact exec_start_of_rejected (mt (valid_iff m e t).1 hinvalid) thr budget s
  case batch =>
    rintro ⟨rfl, hen⟩
    exact exec_start_full (md := .batch) nofun hen t thr budget s
  case stream =>
    rintro ⟨rfl, hen⟩
    exact exec_start_full (md := .stream) nofun hen t thr budget s
  case thresh =>
    rintro ⟨rfl, ht, hbudget⟩
    rw [exec_start_thresh ht, checkZeroBudget_of_budget hbudget]
    rfl
  case zeroBudget =>
    rintro ⟨rfl, ht, hbudget⟩
    rw [exec_start_thresh ht, checkZeroBudget_of_zero rfl hbudget]
    rfl

/-! ### RESET and NOP (R171, R172) -/

theorem exec_reset (s : State) : exec .reset s = .next { State.reset with out := s.out, host := s.host } := rfl

/-- Settles O1: the next state is the one after power-on, but for `out` and the operations still to come. -/
theorem resetSetsEveryField : Obligations.ResetSetsEveryField :=
  fun s => ⟨_, exec_reset s, readW_zero_of_w rfl,
    rfl, rfl, rfl, rfl, rfl, rfl, rfl, rfl, rfl, rfl, rfl, rfl, rfl, rfl, rfl⟩

/-- Settles O3: the meaning of NOP is the state it is given. -/
theorem nopChangesNothing : Obligations.NopChangesNothing := fun _ => rfl

/-! ### END and ABORT, by the session they meet (R176, R177, R178) -/

theorem exec_end_full {s : State} (hactive : s.sess = .active) (hmode : s.mode ≠ .thresh) :
    exec .endInput s = .next { s.clearDecoder with sess := .done } := by
  simp only [exec, execEnd, if_pos hactive, if_neg hmode]

theorem exec_end_thresh {s : State} (hactive : s.sess = .active) (hmode : s.mode = .thresh) :
    exec .endInput s = .next { s.clearDecoder with acc := 0, result := .notTriggered, sess := .done } := by
  simp only [exec, execEnd, if_pos hactive, if_pos hmode]

theorem exec_end_inactive {s : State} (h : s.sess ≠ .active) : exec .endInput s = .next s := if_neg h

theorem exec_abort_active {s : State} (h : s.sess = .active) :
    exec .abort s = .next { { s.clearDecoder with acc := 0 }.raise .transportFailure with sess := .failed } := if_pos h

theorem exec_abort_inactive {s : State} (h : s.sess ≠ .active) : exec .abort s = .next s := if_neg h

/-- Settles O9: END clears the decoder in either kind of mode, and the mode decides over `acc` and `result`. -/
theorem endClearsAndCloses : Obligations.EndClearsAndCloses :=
  fun _ => ⟨exec_end_full, exec_end_thresh, exec_end_inactive⟩

/-- Settles O10: ABORT clears the decoder and raises code 2, in whatever mode the session runs. -/
theorem abortRaisesTransportFailure : Obligations.AbortRaisesTransportFailure :=
  fun _ => ⟨exec_abort_active, exec_abort_inactive⟩

/-! ### The reserved codes (R179) -/

/-- Settles O11: below `rst` the three codes pick their own rows, and each of those rows is a refusal in every state. -/
theorem reservedCodesRefused : Obligations.ReservedCodesRefused := by
  refine fun s => ⟨rfl, rfl, rfl, fun hrst hcmd => ?step⟩
  case step =>
    rw [step, State.fetch, decodeOp_of_not_rst hrst]
    obtain hcmd | hcmd | hcmd := hcmd <;> rw [hcmd] <;> rfl

end Sys2Proof.Machine
end

section
/-! SUPPORT. The statements of the encoding (30_encoding.md): each format in the terms of its rule, what the encoder's words
decode to, and that the decoder answers well-formed instructions alone. -/

namespace Sys2Proof.Machine

/-! ### Format TSLOT, by the range of the edge number (R75) -/

section TargetSlot

variable {t : BitVec 5} {n : BitVec 7} (cur : Byte)

theorem decodeTslot_of_lt (ht : t.toNat < 24) (h : n.toNat < clockSkip t) :
    decodeTslot t n cur = .ok (.tskip t n cur) := by
  rw [decodeTslot, if_neg (by omega), if_pos h]

theorem decodeTslot_of_eq (ht : t.toNat < 24) (h : n.toNat = clockSkip t) :
    decodeTslot t n cur = .ok (.tsign t cur) := by
  rw [decodeTslot, if_neg (by omega), if_neg (by omega), if_pos h]

theorem decodeTslot_of_gt (ht : t.toNat < 24) (hlow : clockSkip t < n.toNat) (hhigh : n.toNat ≤ clockSkip t + 23) :
    decodeTslot t n cur = .ok (.tdata t n cur) := by
  rw [decodeTslot, if_neg (by omega), if_neg (by omega), if_neg (by omega), if_pos hhigh]

theorem decodeTslot_of_past (ht : t.toNat < 24) (h : clockSkip t + 23 < n.toNat) :
    decodeTslot t n cur = .error (.edgeNotConsumed t n) := by
  rw [decodeTslot, if_neg (by omega), if_neg (by omega), if_neg (by omega), if_neg (by omega)]

theorem decodeTslotDone_of_legal (ht : t.toNat < 24) :
    decodeTslotDone t n = if n.toNat = clockSkip t + 23 then .ok (.tcmp t) else .error (.edgeNotConsumed t n) := by
  rw [decodeTslotDone, if_neg (by omega)]

end TargetSlot

/-- The edge numbers that TSIGN and TCMP are encoded with fit in seven bits (45_threshold_prescanner.md R156). -/
theorem toNat_ofNat_clockSkip (t : BitVec 5) : (BitVec.ofNat 7 (clockSkip t)).toNat = clockSkip t := by
  have hle := clockSkip_le t
  rw [BitVec.toNat_ofNat]
  omega

theorem toNat_ofNat_clockSkip_last (t : BitVec 5) :
    (BitVec.ofNat 7 (clockSkip t + 23)).toNat = clockSkip t + 23 := by
  have hle := clockSkip_le t
  rw [BitVec.toNat_ofNat]
  omega

/-! ### Format SLOT, by the position of the edge (R73), and format FN -/

section Slot

variable {n : BitVec 7} (cur : Byte)

theorem decodeSlot_of_lt (h : slotPos n < 8) : decodeSlot n cur = .hdr n cur := by
  rw [decodeSlot_eq, if_pos h]

theorem decodeSlot_of_eq (h : slotPos n = 8) : decodeSlot n cur = .sign n cur := by
  rw [decodeSlot_eq, if_neg (by omega), if_pos h]

theorem decodeSlot_of_low (hlow : 9 ≤ slotPos n) (hhigh : slotPos n < 16) : decodeSlot n cur = .dataLo n cur := by
  rw [decodeSlot_eq, if_neg (by omega), if_neg (by omega), if_pos (by omega)]

theorem decodeSlot_of_high (h : 16 ≤ slotPos n) : decodeSlot n cur = .dataHi n cur := by
  rw [decodeSlot_eq, if_neg (by omega), if_neg (by omega), if_neg (by omega)]

end Slot

theorem decodeSlotDone_eq (n : BitVec 7) :
    decodeSlotDone n = if n = 127 then .ok .emit else .error (.noCompletionAtEdge n) := by
  simp only [decodeSlotDone, slot_last_iff]

/-- A logical channel is its own FN word (42_sample_emitter.md R125). -/
theorem decodeFn_ofNat (i : Fin 24) : decodeFn (BitVec.ofNat 5 i) = .ok (.remap i) := by
  have hi : (BitVec.ofNat 5 i).toNat = i.val := by
    rw [BitVec.toNat_ofNat]
    omega
  simp only [decodeFn, hi, dif_pos i.isLt]

/-! ### The round trip -/

/-- NO_EDGE is encoded under the gating whose event the pair does not show, so that neither event is read from it. -/
theorem decodePair_noEdge {p c : Byte} (h : ¬ (isDrdyFall p c = true ∧ isClkEdge p c = true)) :
    decodePair (isDrdyFall p c) (p ++ c) = .noEdge p c := by
  cases hdrdy : isDrdyFall p c with
  | false => rw [decodePair_idle, hdrdy, if_neg Bool.false_ne_true]
  | true => rw [decodePair_open, if_neg fun hclk => h ⟨hdrdy, hclk⟩]

/-- Settles O48: the ports of a host operation select it, and in the other formats the operands that WellFormed admits are
those the decoder's tests pick the instruction by. -/
theorem decodeEncodeRoundTrip : Obligations.DecodeEncodeRoundTrip := by
  intro i h
  cases i with
  | reset | nop | endInput | abort | reserved5 | reserved6 | reserved7 | emit => rfl
  | start | push => exact congrArg Except.ok (decodeOp_of_not_rst rfl)
  | drdyFall p c => exact congrArg Except.ok ((decodePair_idle p c).trans (if_pos h))
  | clkEdge p c => exact congrArg Except.ok ((decodePair_open p c).trans (if_pos h))
  | noEdge p c =>
    refine congrArg Except.ok (decodePair_noEdge ?_)
    simpa [WellFormed, Instr.wellFormed, or_iff_not_imp_left] using h
  | hdr n cur => exact congrArg Except.ok (decodeSlot_of_lt cur (of_decide_eq_true h))
  | sign n cur => exact congrArg Except.ok (decodeSlot_of_eq cur (of_decide_eq_true h))
  | dataLo n cur =>
    obtain ⟨hlow, hhigh⟩ : 9 ≤ slotPos n ∧ slotPos n < 16 := by simpa [WellFormed, Instr.wellFormed] using h
    exact congrArg Except.ok (decodeSlot_of_low cur hlow hhigh)
  | dataHi n cur => exact congrArg Except.ok (decodeSlot_of_high cur (of_decide_eq_true h))
  | tskip t n cur =>
    obtain ⟨ht, hn⟩ : t.toNat < 24 ∧ n.toNat < clockSkip t := by simpa [WellFormed, Instr.wellFormed] using h
    exact decodeTslot_of_lt cur ht hn
  | tsign t cur => exact decodeTslot_of_eq cur (of_decide_eq_true h) (toNat_ofNat_clockSkip t)
  | tdata t n cur =>
    obtain ⟨⟨ht, hlow⟩, hhigh⟩ : (t.toNat < 24 ∧ clockSkip t < n.toNat) ∧ n.toNat ≤ clockSkip t + 23 := by
      simpa [WellFormed, Instr.wellFormed] using h
    exact decodeTslot_of_gt cur ht hlow hhigh
  | tcmp t => exact (decodeTslotDone_of_legal (of_decide_eq_true h)).trans (if_pos (toNat_ofNat_clockSkip_last t))
  | remap i => exact decodeFn_ofNat i

/-! ### What the decoder answers -/

theorem decodeOp_wellFormed (p : HostPorts) : WellFormed (decodeOp p) := by
  cases hrst : p.rst with
  | true => rw [decodeOp_of_rst hrst]; rfl
  | false =>
    rw [decodeOp_of_not_rst hrst]
    repeat' split
    all_goals rfl

/-- A PAIR word is the pair of its bytes. -/
theorem extract_append_extract (w : BitVec 16) : w.extractLsb' 8 8 ++ w.extractLsb' 0 8 = w :=
  (BitVec.extractLsb'_append_extractLsb'_eq_extractLsb' rfl).trans BitVec.extractLsb'_eq_self

theorem decodePair_wellFormed (frameOpen : Bool) (w : BitVec 16) : WellFormed (decodePair frameOpen w) := by
  rw [← extract_append_extract w]
  generalize w.extractLsb' 8 8 = p
  generalize w.extractLsb' 0 8 = c
  cases frameOpen with
  | false =>
    rw [decodePair_idle]
    split
    · assumption
    · simp_all [WellFormed, Instr.wellFormed]
  | true =>
    rw [decodePair_open]
    split
    · assumption
    · simp_all [WellFormed, Instr.wellFormed]

theorem decodeSlot_wellFormed (n : BitVec 7) (cur : Byte) : WellFormed (decodeSlot n cur) := by
  rw [decodeSlot_eq]
  repeat' split
  all_goals simp only [WellFormed, Instr.wellFormed, Bool.and_eq_true, decide_eq_true_eq]
  all_goals omega

theorem decodeTslot_wellFormed {t : BitVec 5} {n : BitVec 7} {cur : Byte} {i : Instr} (h : decodeTslot t n cur = .ok i) :
    WellFormed i := by
  unfold decodeTslot at h
  split at h
  · cases h
  · repeat' split at h
    all_goals cases h
    all_goals simp only [WellFormed, Instr.wellFormed, Bool.and_eq_true, decide_eq_true_eq]
    all_goals omega

theorem decodeTslotDone_wellFormed {t : BitVec 5} {n : BitVec 7} {i : Instr} (h : decodeTslotDone t n = .ok i) :
    WellFormed i := by
  by_cases ht : t.toNat < 24
  · rw [decodeTslotDone_of_legal ht] at h
    split at h
    · cases h
      exact decide_eq_true ht
    · cases h
  · rw [decodeTslotDone, if_pos (by omega)] at h
    cases h

/-- Settles O49: format by format, the test that picks an instruction is the condition on its operands. -/
theorem decodedIsWellFormed : Obligations.DecodedIsWellFormed := by
  intro c i h
  cases c with
  | op p => cases h; exact decodeOp_wellFormed p
  | pair o w => cases h; exact decodePair_wellFormed o w
  | slot n cur => cases h; exact decodeSlot_wellFormed n cur
  | slotDone n =>
    simp only [decode, decodeSlotDone_eq] at h
    split at h <;> cases h
    rfl
  | tslot t n cur => exact decodeTslot_wellFormed h
  | tslotDone t n => exact decodeTslotDone_wellFormed h
  | fn i =>
    simp only [decode, decodeFn] at h
    split at h <;> cases h
    rfl

/-! ### The formats, word by word -/

/-- Settles O51: each gating looks for one edge, and an edge is its line going from 1 to 0. -/
theorem pairWordsDecode : Obligations.PairWordsDecode := by
  intro p c
  simp only [decode, decodePair_idle, decodePair_open, isDrdyFall_eq_bits, isClkEdge_eq_bits, Bool.and_eq_true,
    Bool.not_eq_true', and_self]

/-- Settles O52: the ranges of the position are the decoder's, and edge 127 is the one word of EMIT. -/
theorem slotWordsDecode : Obligations.SlotWordsDecode := by
  intro n cur
  refine ⟨fun h => congrArg Except.ok (decodeSlot_of_lt cur h), fun h => congrArg Except.ok (decodeSlot_of_eq cur h),
    fun hlow hhigh => congrArg Except.ok (decodeSlot_of_low cur hlow hhigh),
    fun h => congrArg Except.ok (decodeSlot_of_high cur h), ?done⟩
  case done =>
    have hlast : n = 127 ↔ n.toNat = 127 := BitVec.toNat_inj.symm
    simp only [decode, decodeSlotDone_eq, hlast]

/-- Settles O53: for a legal target the ranges of R75 are the decoder's. -/
theorem targetSlotWordsDecode : Obligations.TargetSlotWordsDecode := by
  intro t n cur ht skip
  have hlegal : t.toNat < 24 := by omega
  exact ⟨decodeTslot_of_lt cur hlegal, decodeTslot_of_eq cur hlegal, decodeTslot_of_gt cur hlegal,
    decodeTslot_of_past cur hlegal, decodeTslotDone_of_legal hlegal⟩

/-- Settles O54: `rst` selects RESET whatever `cmd` holds, and the other words are evaluated. -/
theorem writtenWordsDecode : Obligations.WrittenWordsDecode :=
  ⟨fun _ hrst => congrArg Except.ok (decodeOp_of_rst hrst), rfl, rfl, rfl, rfl, rfl, rfl, rfl, rfl⟩

end Sys2Proof.Machine
end

section
/-! SUPPORT. What one byte does to the output and to the session, in the terms that the invariants and the statements on
the whole machine use. -/

namespace Sys2Proof.Machine

/-! ### The output (43_batch_decoder.md R137) -/

/-- FSTEP emits at CLK edge 127 of the open frame alone, and then the record stands on the ports too. -/
theorem fstep_emission (s : State) (b : Byte) :
    ((s.fstep b).out = s.out ∧ (s.fstep b).emitted = s.emitted) ∨
    (s.prevValid = true ∧ isClkEdge s.prev b = true ∧ s.cc = some 127 ∧
      ∃ w, (s.fstep b).out = s.out ++ record s.en w ∧ (s.fstep b).emitted = some (record s.en w)) := by
  obtain h | ⟨-, -, -, h⟩ | ⟨hv, he, n, hc, h⟩ := fstep_cases s b
  · exact .inl (by rw [h]; exact ⟨rfl, rfl⟩)
  · exact .inl (by rw [h]; exact ⟨rfl, rfl⟩)
  · obtain ⟨rfl, hstep⟩ | ⟨-, hstep⟩ := clkStep_cases s n b
    · exact .inr ⟨hv, he, hc, (s.bitEdge 127 b).w, by rw [h, hstep]; simp⟩
    · exact .inl (by rw [h, hstep]; simp)

/-! ### The scan (45_threshold_prescanner.md R161, R162) -/

@[simp] theorem State.targetByte_scanned (s : State) (b : Byte) : (s.targetByte b).scanned = s.scannedNext := by
  obtain h | ⟨-, -, -, h⟩ | ⟨-, -, n, -, h⟩ := targetByte_cases s b <;> rw [h] <;> simp

@[simp] theorem State.tstep_scanned (s : State) (b : Byte) : (s.tstep b).scanned = s.scannedNext := by
  unfold State.tstep; simp

/-- A CLK edge ends the session by a trigger or leaves its status. -/
theorem targetStep_session (s : State) (n : BitVec 7) (b : Byte) :
    ((s.targetStep n b).sess = s.sess ∧ (s.targetStep n b).result = s.result) ∨
    ((s.targetStep n b).sess = .done ∧ (s.targetStep n b).result = .triggered ∧
      s.thr.toInt ≤ (s.targetStep n b).acc.toInt) := by
  obtain ⟨-, h⟩ | ⟨-, h⟩ := targetStep_cases s n b
  · obtain ⟨hreach, hcmp⟩ | ⟨-, hcmp⟩ := targetCompare_cases (s.targetBit n b)
    · have hle := (reaches_iff _).1 hreach
      rw [State.targetBit_thr] at hle
      exact .inr (by rw [h, hcmp]; exact ⟨rfl, rfl, hle⟩)
    · exact .inl (by rw [h, hcmp]; simp)
  · exact .inl (by rw [h]; simp)

/-- A byte, before the budget check, ends the session by a trigger or leaves its status. -/
theorem targetByte_session (s : State) (b : Byte) :
    ((s.targetByte b).sess = s.sess ∧ (s.targetByte b).result = s.result) ∨
    ((s.targetByte b).sess = .done ∧ (s.targetByte b).result = .triggered ∧
      s.thr.toInt ≤ (s.targetByte b).acc.toInt) := by
  obtain h | ⟨-, -, -, h⟩ | ⟨-, -, n, -, h⟩ := targetByte_cases s b
  · exact .inl (by rw [h]; exact ⟨rfl, rfl⟩)
  · exact .inl (by rw [h]; exact ⟨rfl, rfl⟩)
  · rw [h]
    exact targetStep_session { s with scanned := s.scannedNext } n b

/-- A byte of an active scan leaves the session active below its budget, or ends it by a trigger or by the budget. -/
theorem tstep_session {s : State} (b : Byte) (hactive : s.sess = .active) :
    ((s.tstep b).sess = .active ∧ (s.tstep b).result = s.result ∧ (s.tstep b).scanned ≠ s.budget) ∨
    ((s.tstep b).sess = .done ∧ (s.tstep b).result = .triggered ∧ s.thr.toInt ≤ (s.tstep b).acc.toInt) ∨
    ((s.tstep b).sess = .done ∧ (s.tstep b).result = .notTriggered ∧ (s.tstep b).scanned = s.budget) := by
  unfold State.tstep
  obtain ⟨-, hspent, hcheck⟩ | ⟨hleft, hcheck⟩ := checkBudget_cases (s.targetByte b)
  · rw [hcheck]
    exact .inr (.inr ⟨rfl, rfl, by rw [hspent, State.targetByte_budget]⟩)
  · rw [hcheck]
    obtain ⟨hsess, hresult⟩ | htrigger := targetByte_session s b
    · have hstays : (s.targetByte b).sess = .active := hsess.trans hactive
      exact .inl ⟨hstays, hresult, fun hspent => hleft ⟨hstays, by rw [hspent, State.targetByte_budget]⟩⟩
    · exact .inr (.inl htrigger)

end Sys2Proof.Machine
end

section
/-! SUPPORT. What a step keeps, and what it keeps of the word assembler (10_state.md R23, 41_word_assembler.md R117). -/

namespace Sys2Proof.Machine

/-! ### Any step -/

/-- A property that each of the steps leaves true is kept by every step. -/
theorem step_keeps {P : State → Prop} {s t : State} (h : step s = .next t)
    (reset : P { State.reset with out := s.out, host := s.host.tail })
    (nop : P s.beginStep)
    (start : ∀ m e c thr budget, exec (.start m e c thr budget) s.beginStep = .next t → P t)
    (fstep : ∀ b, s.sess = .active → s.mode ≠ .thresh → P (s.beginStep.fstep b))
    (tstep : ∀ b, s.sess = .active → s.mode = .thresh → P (s.beginStep.tstep b))
    (endFull : s.sess = .active → s.mode ≠ .thresh → P { s.beginStep.clearDecoder with sess := .done })
    (endThresh : s.sess = .active → s.mode = .thresh →
      P { s.beginStep.clearDecoder with acc := 0, result := .notTriggered, sess := .done })
    (abort : s.sess = .active →
      P { { s.beginStep.clearDecoder with acc := 0 }.raise .transportFailure with sess := .failed }) : P t := by
  obtain rfl | rfl | ⟨m, e, c, thr, budget, hstart⟩ | ⟨b, ha, hmode, rfl⟩ | ⟨b, ha, hmode, rfl⟩ | ⟨ha, hmode, rfl⟩ |
    ⟨ha, hmode, rfl⟩ | ⟨ha, rfl⟩ := step_cases s t h
  · exact reset
  · exact nop
  · exact start m e c thr budget hstart
  · exact fstep b ha hmode
  · exact tstep b ha hmode
  · exact endFull ha hmode
  · exact endThresh ha hmode
  · exact abort ha

/-- START leaves a clear decoder, scanner and sink, whether it is accepted or not (46_session_control.md R173). -/
theorem exec_start_clears {m : BitVec 2} {e : BitVec 24} {c : BitVec 5} {thr budget : BitVec 32} {s t : State}
    (h : exec (.start m e c thr budget) s = .next t) :
    t.w = Vector.replicate 24 0 ∧ t.cc = none ∧ t.acc = 0 ∧ t.scanned = 0 ∧ t.out = [] ∧ t.emitted = s.emitted := by
  obtain ⟨-, rfl⟩ | ⟨_, -, rfl, -⟩ | ⟨-, -, rfl⟩ := execStart_cases m e c thr budget s t h <;>
    exact ⟨rfl, rfl, rfl, rfl, rfl, rfl⟩

/-- START latches THRESH for a legal target alone (46_session_control.md R174). -/
theorem target_of_acceptedMode {m : BitVec 2} {e : BitVec 24} {t : BitVec 5} (h : acceptedMode m e t = some .thresh) :
    t.toNat ≤ 23 := by
  obtain ⟨-, hm⟩ | ⟨-, -, -, hm⟩ | ⟨-, -, -, hm⟩ | ⟨-, ht, -, -⟩ := acceptedMode_cases m e t
  case inr.inr.inr => exact ht
  all_goals exact absurd (hm.symm.trans h) nofun

/-- START latches BATCH and STREAM with a channel enabled alone (46_session_control.md R174). -/
theorem enabled_of_acceptedMode {m : BitVec 2} {e : BitVec 24} {t : BitVec 5} {md : Mode}
    (h : acceptedMode m e t = some md) (hfull : md ≠ .thresh) : e ≠ 0 := by
  obtain ⟨-, hm⟩ | ⟨-, he, -, -⟩ | ⟨-, he, -, -⟩ | ⟨-, -, -, hm⟩ := acceptedMode_cases m e t
  · exact absurd (hm.symm.trans h) nofun
  · exact he
  · exact he
  · exact absurd (Option.some.inj (h.symm.trans hm)) hfull

/-! ### The word assembler -/

/-- With all words 0 only the opening of a frame is left to check. -/
theorem assemblerInv_of_zero {s : State} (hzero : ∀ i : Fin 24, s.readW i = 0)
    (hprev : s.prevValid = false → s.cc = none) : s.AssemblerInv where
  idle_zero _ := hzero
  ahead_zero _ _ i _ := hzero i
  unsigned_zero _ _ _ i _ := hzero i
  word_sext i := by rw [hzero i]; decide
  frame_has_prev := hprev
  thresh_zero _ := hzero

/-- A cleared decoder meets the invariant, whatever the session around it. -/
theorem assemblerInv_of_clear {s : State} (hw : s.w = Vector.replicate 24 0) (hc : s.cc = none) : s.AssemblerInv :=
  assemblerInv_of_zero (readW_zero_of_w hw) fun _ => hc

namespace State.AssemblerInv

variable {s t : State}

/-- The invariant speaks of the words, the counter, the mode and whether there is a previous byte. -/
theorem congr (h : s.AssemblerInv) (hw : t.w = s.w) (hc : t.cc = s.cc) (hmode : t.mode = s.mode)
    (hv : t.prevValid = false → s.prevValid = false) : t.AssemblerInv := by
  have hread : ∀ i, t.readW i = s.readW i := readW_eq_of_w hw
  constructor
  case frame_has_prev => exact fun hfirst => hc.trans (h.frame_has_prev (hv hfirst))
  all_goals simp only [hread, hc, hmode]
  case idle_zero => exact h.idle_zero
  case ahead_zero => exact h.ahead_zero
  case unsigned_zero => exact h.unsigned_zero
  case word_sext => exact h.word_sext
  case thresh_zero => exact h.thresh_zero

theorem beginStep (h : s.AssemblerInv) : s.beginStep.AssemblerInv := h.congr rfl rfl rfl id

theorem shiftIn (h : s.AssemblerInv) (b : Byte) : (s.shiftIn b).AssemblerInv := h.congr rfl rfl rfl nofun

/-- A frame opens between frames, where all words are 0. -/
theorem frameStart (h : s.AssemblerInv) (hc : s.cc = none) (hv : s.prevValid = true) : s.frameStart.AssemblerInv :=
  assemblerInv_of_zero (h.idle_zero hc) fun hfirst => absurd (hv.symm.trans hfirst) nofun

/-- Edge `n` leaves the words of the group of edge `n + 1` at 0 until the SIGN edge of that group has passed: it is a
header edge, or the last edge of the group before. -/
theorem readW_bitEdge_unsigned (h : s.AssemblerInv) {n : BitVec 7} (hc : s.cc = some n) (b : Byte) {i : Fin 24}
    (hpos : (n.toNat + 1) % 32 ≤ 8) (hi : 6 * ((n.toNat + 1) / 32) ≤ i.val) : (s.bitEdge n b).readW i = 0 := by
  have houtside : slotPos n < 8 ∨ i.val / 6 ≠ slotGroup n := by unfold slotPos slotGroup; omega
  rw [readW_bitEdge, if_pos houtside]
  by_cases hhdr : slotPos n ≤ 8
  · exact h.unsigned_zero n hc hhdr i (by unfold slotPos at hhdr; unfold slotGroup; omega)
  · exact h.ahead_zero n hc i (by unfold slotPos at hhdr; unfold slotGroup; omega)

/-- CLK_STEP writes the words of the group in progress alone, and completes the frame with all words 0. -/
theorem clkStep (h : s.AssemblerInv) {n : BitVec 7} (hc : s.cc = some n) (hv : s.prevValid = true)
    (hmode : s.mode ≠ .thresh) (b : Byte) : (s.clkStep n b).AssemblerInv := by
  obtain ⟨-, hstep⟩ | ⟨hn, hstep⟩ := clkStep_cases s n b
  · rw [hstep]
    exact assemblerInv_of_clear rfl rfl
  · have hsucc := toNat_count_succ n hn
    rw [hstep]
    constructor
    case idle_zero => exact nofun
    case ahead_zero =>
      rintro m ⟨⟩ i hi
      rw [slotGroup, hsucc] at hi
      have houtside : i.val / 6 ≠ slotGroup n := by unfold slotGroup; omega
      have hahead : 6 * (slotGroup n + 1) ≤ i.val := by unfold slotGroup; omega
      exact (readW_bitEdge s n b i).trans ((if_pos (.inr houtside)).trans (h.ahead_zero n hc i hahead))
    case unsigned_zero =>
      rintro m ⟨⟩ hpos i hi
      rw [slotPos, hsucc] at hpos
      rw [slotGroup, hsucc] at hi
      exact h.readW_bitEdge_unsigned hc b hpos hi
    case word_sext => exact sext24_bitEdge s n b h.word_sext
    case frame_has_prev =>
      intro hfirst
      rw [State.countEdge_prevValid, State.bitEdge_prevValid, hv] at hfirst
      cases hfirst
    case thresh_zero =>
      intro hthresh
      rw [State.countEdge_mode, State.bitEdge_mode] at hthresh
      exact absurd hthresh hmode

theorem fstep (h : s.AssemblerInv) (hmode : s.mode ≠ .thresh) (b : Byte) : (s.fstep b).AssemblerInv := by
  obtain heq | ⟨hv, hc, -, heq⟩ | ⟨hv, -, n, hc, heq⟩ := fstep_cases s b <;> rw [heq]
  · exact h.shiftIn b
  · exact (h.frameStart hc hv).shiftIn b
  · exact (h.clkStep hc hv hmode b).shiftIn b

/-- TSTEP does not touch the words, which are 0 in THRESH mode. -/
theorem tstep (h : s.AssemblerInv) (hmode : s.mode = .thresh) (b : Byte) : (s.tstep b).AssemblerInv :=
  assemblerInv_of_zero (fun i => (readW_eq_of_w (s.tstep_w b) i).trans (h.thresh_zero hmode i))
    fun hfirst => absurd ((tstep_prev s b).2.symm.trans hfirst) nofun

end State.AssemblerInv

/-- Settles O55: RESET, START, END and ABORT clear the words and the counter; a byte runs FSTEP, whose edges write the group
in progress alone, or TSTEP, which leaves the words 0. -/
theorem stepKeepsAssemblerInv : Obligations.StepKeepsAssemblerInv := by
  intro s t h hstep
  refine step_keeps hstep ?reset h.beginStep ?start (fun b _ hmode => h.beginStep.fstep hmode b)
    (fun b _ hmode => h.beginStep.tstep hmode b) ?endFull ?endThresh ?abort
  case start =>
    intro m e c thr budget hstart
    obtain ⟨hw, hc, -⟩ := exec_start_clears hstart
    exact assemblerInv_of_clear hw hc
  case reset => exact assemblerInv_of_clear rfl rfl
  case endFull | endThresh => exact fun _ _ => assemblerInv_of_clear rfl rfl
  case abort => exact fun _ => assemblerInv_of_clear rfl rfl

end Sys2Proof.Machine
end

section
/-! SUPPORT. Every step keeps the invariant of the threshold scanner (10_state.md R27, R28, 45_threshold_prescanner.md
R161). -/

namespace Sys2Proof.Machine

/-! ### The accumulator of a legal target -/

/-- The sign lane keeps a word sign-extended (41_word_assembler.md R117). -/
theorem sext24_signLane {x : Word} {k : Nat} (hk : k < 6) (b : Byte) (h : x = sext24 (x.setWidth 24)) :
    signLane b k x = sext24 ((signLane b k x).setWidth 24) := by
  rw [signLane_eq b k x hk]
  split
  · decide
  · exact h

/-- A data lane below bit 23 keeps a word sign-extended (41_word_assembler.md R117). -/
theorem sext24_dataLane {x : Word} {k c : Nat} (hk : k < 6) (hc : c ≤ 22) (b : Byte) (h : x = sext24 (x.setWidth 24)) :
    dataLane b c k x = sext24 ((dataLane b c k x).setWidth 24) := by
  rw [dataLane_eq b c k x hk]
  split
  · exact sext24_or_twoPow x c hc h
  · exact h

/-- The bit operation of an edge in the scanner's range keeps the accumulator sign-extended. -/
theorem sext24_targetBit {s : State} {n : BitVec 7} (b : Byte) (ht : s.tch.toNat ≤ 23)
    (hn : n.toNat ≤ clockSkip s.tch + 23) (h : s.acc = sext24 (s.acc.setWidth 24)) :
    (s.targetBit n b).acc = sext24 ((s.targetBit n b).acc.setWidth 24) := by
  have hline : targetLine s.tch < 6 := targetLine_lt (by omega)
  obtain ⟨-, hbit⟩ | ⟨-, hbit⟩ | ⟨hlow, hbit⟩ := targetBit_cases s n b <;> rw [hbit]
  · exact h
  · exact sext24_signLane hline b h
  · rw [State.targetData_acc, or_targetContrib b s.acc hlow.le hn]
    exact sext24_dataLane hline (by omega) b h

/-! ### The scanner of a THRESH session -/

/-- What the invariant says of the accumulator and the counter of a THRESH session, budget apart: TSTEP keeps it before it
checks the budget. -/
structure State.ScanInv (s : State) : Prop where
  acc_sext : s.acc = sext24 (s.acc.setWidth 24)
  target_legal : s.sess = .active → s.tch.toNat ≤ 23
  idle_acc : s.sess = .active → s.cc = none → s.acc = 0
  count_range : s.sess = .active → ∀ n, s.cc = some n → n.toNat ≤ clockSkip s.tch + 23
  unsigned_acc : s.sess = .active → ∀ n, s.cc = some n → n.toNat ≤ clockSkip s.tch → s.acc = 0

/-- In THRESH mode the invariant is that of the scanner, with a budget that an active scan has not used up. -/
theorem thresholdInv_iff_of_thresh {s : State} (hmode : s.mode = .thresh) :
    s.ThresholdInv ↔ s.ScanInv ∧ (s.sess = .active → s.scanned.toNat < s.budget.toNat) where
  mp h := ⟨⟨h.acc_sext, (h.target_legal · hmode), (h.idle_acc · hmode), (h.count_range · hmode),
    (h.unsigned_acc · hmode)⟩, (h.budget_left · hmode)⟩
  mpr h := ⟨fun hfull => absurd hmode hfull, h.1.acc_sext, fun ha _ => h.1.target_legal ha, fun ha _ => h.2 ha,
    fun ha _ => h.1.idle_acc ha, fun ha _ => h.1.count_range ha, fun ha _ => h.1.unsigned_acc ha⟩

/-- In BATCH and STREAM modes the invariant is that the scanner's registers are 0. -/
theorem thresholdInv_of_full {s : State} (hmode : s.mode ≠ .thresh) (hacc : s.acc = 0) (hscanned : s.scanned = 0)
    (hresult : s.result = .none) : s.ThresholdInv where
  full_zero _ := ⟨hacc, hscanned, hresult⟩
  acc_sext := by rw [hacc]; decide
  target_legal _ hthresh := absurd hthresh hmode
  budget_left _ hthresh := absurd hthresh hmode
  idle_acc _ hthresh := absurd hthresh hmode
  count_range _ hthresh := absurd hthresh hmode
  unsigned_acc _ hthresh := absurd hthresh hmode

/-- With a clear accumulator and no frame open only the target and the budget of an active scan are left to check. -/
theorem thresholdInv_of_clear {s : State} (hacc : s.acc = 0) (hc : s.cc = none)
    (hfull : s.mode ≠ .thresh → s.scanned = 0 ∧ s.result = .none)
    (hactive : s.sess = .active → s.mode = .thresh → s.tch.toNat ≤ 23 ∧ s.scanned.toNat < s.budget.toNat) :
    s.ThresholdInv where
  full_zero hmode := ⟨hacc, hfull hmode⟩
  acc_sext := by rw [hacc]; decide
  target_legal ha hm := (hactive ha hm).1
  budget_left ha hm := (hactive ha hm).2
  idle_acc _ _ _ := hacc
  count_range _ _ n hn := absurd (hc.symm.trans hn) nofun
  unsigned_acc _ _ _ _ _ := hacc

namespace State.ScanInv

variable {s : State}

/-- Where no session is active only the sign extension is left to check. -/
theorem of_inactive (ha : s.sess ≠ .active) (h : s.acc = sext24 (s.acc.setWidth 24)) : s.ScanInv :=
  ⟨h, (absurd · ha), (absurd · ha), (absurd · ha), (absurd · ha)⟩

theorem counted (h : s.ScanInv) (k : BitVec 32) : { s with scanned := k }.ScanInv :=
  ⟨h.acc_sext, h.target_legal, h.idle_acc, h.count_range, h.unsigned_acc⟩

theorem shiftIn (h : s.ScanInv) (b : Byte) : (s.shiftIn b).ScanInv :=
  ⟨h.acc_sext, h.target_legal, h.idle_acc, h.count_range, h.unsigned_acc⟩

/-- A frame opens between frames, where the accumulator is 0. -/
theorem frameStart (h : s.ScanInv) (hc : s.cc = none) : s.frameStart.ScanInv where
  acc_sext := h.acc_sext
  target_legal := h.target_legal
  idle_acc _ hnone := absurd hnone nofun
  count_range _ n hn := by cases hn; exact Nat.zero_le _
  unsigned_acc ha _ _ _ := h.idle_acc ha hc

/-- The compare ends the session, or clears the accumulator and waits for the next frame. -/
theorem targetCompare (hacc : s.acc = sext24 (s.acc.setWidth 24)) (ht : s.tch.toNat ≤ 23) :
    s.targetCompare.ScanInv := by
  have hzero : (0 : Word) = sext24 ((0 : Word).setWidth 24) := by decide
  obtain ⟨-, heq⟩ | ⟨-, heq⟩ := targetCompare_cases s <;> rw [heq]
  · exact of_inactive nofun hacc
  · exact ⟨hzero, fun _ => ht, fun _ _ => rfl, nofun, nofun⟩

/-- An edge before the completing one: before TSIGN it leaves the accumulator at 0. -/
theorem countEdge (h : s.ScanInv) (ha : s.sess = .active) {n : BitVec 7} (hc : s.cc = some n)
    (hn : n.toNat < clockSkip s.tch + 23) (b : Byte) : { s.targetBit n b with cc := some (n + 1) }.ScanInv := by
  have hlast : n ≠ 127 := by
    rintro rfl
    have hle := clockSkip_le s.tch
    have h127 : (127 : BitVec 7).toNat = 127 := rfl
    omega
  have hsucc := toNat_count_succ n hlast
  have htch : (s.targetBit n b).tch = s.tch := s.targetBit_tch n b
  constructor
  case acc_sext => exact sext24_targetBit b (h.target_legal ha) hn.le h.acc_sext
  case target_legal => exact fun _ => htch ▸ h.target_legal ha
  case idle_acc => exact nofun
  case count_range =>
    rintro _ m ⟨⟩
    simp only [htch]
    omega
  case unsigned_acc =>
    rintro _ m ⟨⟩ hbefore
    simp only [htch] at hbefore
    have hskip : n.toNat < clockSkip s.tch := by omega
    have hbit : s.targetBit n b = s := if_pos hskip
    simp only [hbit]
    exact h.unsigned_acc ha n hc hskip.le

/-- The CLK branch of TSTEP. -/
theorem targetStep (h : s.ScanInv) (ha : s.sess = .active) {n : BitVec 7} (hc : s.cc = some n) (b : Byte) :
    (s.targetStep n b).ScanInv := by
  have hrange := h.count_range ha n hc
  have ht := h.target_legal ha
  rw [targetStep_of_le b hrange]
  split
  case isTrue => exact targetCompare (sext24_targetBit b ht hrange h.acc_sext) (by rwa [State.targetBit_tch])
  case isFalse hbefore => exact h.countEdge ha hc (lt_of_le_of_ne hrange hbefore) b

/-- TSTEP before its budget check. -/
theorem targetByte (h : s.ScanInv) (ha : s.sess = .active) (b : Byte) : (s.targetByte b).ScanInv := by
  have hcounted := h.counted s.scannedNext
  obtain heq | ⟨-, hc, -, heq⟩ | ⟨-, -, n, hc, heq⟩ := targetByte_cases s b <;> rw [heq]
  · exact hcounted.shiftIn b
  · exact (hcounted.frameStart hc).shiftIn b
  · exact (hcounted.targetStep ha hc b).shiftIn b

/-- The budget check leaves the accumulator alone. -/
theorem checkBudget (h : s.ScanInv) : s.checkBudget.ScanInv := by
  obtain ⟨-, -, heq⟩ | ⟨-, heq⟩ := checkBudget_cases s <;> rw [heq]
  · exact of_inactive nofun h.acc_sext
  · exact h

end State.ScanInv

/-! ### The step -/

namespace State.ThresholdInv

variable {s : State}

theorem beginStep (h : s.ThresholdInv) : s.beginStep.ThresholdInv :=
  ⟨h.full_zero, h.acc_sext, h.target_legal, h.budget_left, h.idle_acc, h.count_range, h.unsigned_acc⟩

/-- FSTEP does not touch the scanner's registers. -/
theorem fstep (h : s.ThresholdInv) (hmode : s.mode ≠ .thresh) (b : Byte) : (s.fstep b).ThresholdInv := by
  obtain ⟨hacc, hscanned, hresult⟩ := h.full_zero hmode
  exact thresholdInv_of_full (by rwa [State.fstep_mode]) ((s.fstep_acc b).trans hacc)
    ((s.fstep_scanned b).trans hscanned) ((s.fstep_result b).trans hresult)

/-- TSTEP counts the byte, which the budget still covers, and a scan that is still active has not used it up. -/
theorem tstep (h : s.ThresholdInv) (ha : s.sess = .active) (hmode : s.mode = .thresh) (b : Byte) :
    (s.tstep b).ThresholdInv := by
  have hbudget := h.budget_left ha hmode
  obtain ⟨hnext, hsucc⟩ := scannedNext_of_lt s hbudget
  refine (thresholdInv_iff_of_thresh (by rwa [State.tstep_mode])).2 ⟨?scan, fun hactive => ?budget⟩
  case scan => exact (((thresholdInv_iff_of_thresh hmode).1 h).1.targetByte ha b).checkBudget
  case budget =>
    obtain ⟨-, -, hleft⟩ | ⟨hdone, -⟩ | ⟨hdone, -⟩ := tstep_session b ha
    · rw [State.tstep_scanned, hnext] at hleft ⊢
      rw [State.tstep_budget]
      have hne := mt BitVec.eq_of_toNat_eq hleft
      omega
    all_goals exact absurd (hactive.symm.trans hdone) nofun

end State.ThresholdInv

/-- Settles O56: START clears the scanner and opens a scan with a legal target and a budget; FSTEP does not touch the
scanner, TSTEP stays within its range and its budget, and RESET, END and ABORT end the scan with a clear accumulator. -/
theorem stepKeepsThresholdInv : Obligations.StepKeepsThresholdInv := by
  intro s t h hstep
  refine step_keeps hstep (thresholdInv_of_full nofun rfl rfl rfl) h.beginStep ?start
    (fun b _ hmode => h.beginStep.fstep hmode b) (fun b ha hmode => h.beginStep.tstep ha hmode b) ?endFull ?endThresh
    ?abort
  case start =>
    intro m e c thr budget hstart
    obtain ⟨-, hc, hacc, hscanned, -⟩ := exec_start_clears hstart
    obtain ⟨-, rfl⟩ | ⟨md, haccepted, rfl, hbudget⟩ | ⟨-, -, rfl⟩ := execStart_cases _ _ _ _ _ _ _ hstart
    -- rejected
    · exact thresholdInv_of_clear hacc hc (fun _ => ⟨hscanned, rfl⟩) nofun
    -- accepted, with a budget in THRESH mode
    · refine thresholdInv_of_clear hacc hc (fun _ => ⟨hscanned, rfl⟩) fun _ hthresh => ?_
      obtain rfl : md = .thresh := hthresh
      exact ⟨target_of_acceptedMode haccepted, Nat.pos_of_ne_zero fun hzero => hbudget rfl (BitVec.eq_of_toNat_eq hzero)⟩
    -- accepted in THRESH mode with budget 0, and over at once
    · exact thresholdInv_of_clear hacc hc (fun hfull => absurd rfl hfull) nofun
  case endFull =>
    intro _ hmode
    obtain ⟨hacc, hscanned, hresult⟩ := h.full_zero hmode
    exact thresholdInv_of_full hmode hacc hscanned hresult
  case endThresh =>
    exact fun _ hmode => thresholdInv_of_clear rfl rfl (fun hfull => absurd hmode hfull) nofun
  case abort =>
    exact fun _ => thresholdInv_of_clear rfl rfl (fun hfull => (h.full_zero hfull).2) nofun

end Sys2Proof.Machine
end

section
/-! SUPPORT. Every step keeps the invariant of the session (46_session_control.md R180) and that of the output
(42_sample_emitter.md R128, 20_memory.md R52), and the state after reset meets all four invariants. -/

namespace Sys2Proof.Machine

/-! ### The session -/

/-- A running or finished session with no error: what is left to check is the result and the enable set. -/
theorem sessionInv_of_err_none {s : State} (herr : s.err = .none) (hsess : s.sess = .active ∨ s.sess = .done)
    (hresult : s.result ≠ .none → s.sess = .done) (hen : s.sess = .active → s.mode ≠ .thresh → s.en ≠ 0) :
    s.SessionInv where
  failed_iff := by rw [herr]; obtain h | h := hsess <;> rw [h] <;> exact ⟨nofun, nofun⟩
  rejected_none hrejected := absurd (herr.symm.trans hrejected) nofun
  result_done := hresult
  enabled := hen
  idle_clear hidle := by obtain h | h := hsess <;> rw [h] at hidle <;> obtain hidle | hidle := hidle <;> cases hidle

/-- A session that is not there, or has failed, with a clear decoder and no result: what is left to check is the error. -/
theorem sessionInv_of_idle {s : State} (hsess : s.sess = .none ∧ s.err ≠ .transportFailure ∨
      s.sess = .failed ∧ s.err = .transportFailure) (hresult : s.result = .none) (hc : s.cc = none)
    (hv : s.prevValid = false) (hacc : s.acc = 0) : s.SessionInv where
  failed_iff := by obtain ⟨h, herr⟩ | ⟨h, herr⟩ := hsess <;> simp [h, herr]
  rejected_none hrejected := by obtain ⟨h, herr⟩ | ⟨h, herr⟩ := hsess <;> simp_all
  result_done h := absurd hresult h
  enabled ha := by obtain ⟨h, -⟩ | ⟨h, -⟩ := hsess <;> exact absurd (ha.symm.trans h) nofun
  idle_clear _ := ⟨hc, hv, hacc⟩

namespace State.SessionInv

variable {s : State}

theorem beginStep (h : s.SessionInv) : s.beginStep.SessionInv :=
  ⟨h.failed_iff, h.rejected_none, h.result_done, h.enabled, h.idle_clear⟩

/-- An active session has raised nothing: code 2 goes with FAILED and code 3 with no session. -/
theorem err_of_active (h : s.SessionInv) (ha : s.sess = .active) : s.err = .none := by
  cases herr : s.err with
  | none => rfl
  | transportFailure => exact absurd (ha.symm.trans (h.failed_iff.2 herr)) nofun
  | malformedConfiguration => exact absurd (ha.symm.trans (h.rejected_none herr)) nofun

theorem result_of_active (h : s.SessionInv) (ha : s.sess = .active) : s.result = .none :=
  Classical.byContradiction fun hresult => absurd (ha.symm.trans (h.result_done hresult)) nofun

/-- FSTEP leaves the session, its result and its error alone. -/
theorem fstep (h : s.SessionInv) (ha : s.sess = .active) (b : Byte) : (s.fstep b).SessionInv := by
  refine sessionInv_of_err_none ((s.fstep_err b).trans (h.err_of_active ha)) (.inl ((s.fstep_sess b).trans ha)) ?result ?en
  case result => exact fun hresult => absurd ((s.fstep_result b).trans (h.result_of_active ha)) hresult
  case en =>
    rw [State.fstep_mode, State.fstep_en]
    exact fun _ => h.enabled ha

/-- TSTEP leaves the session active without a result, or ends it with one. -/
theorem tstep (h : s.SessionInv) (ha : s.sess = .active) (hmode : s.mode = .thresh) (b : Byte) :
    (s.tstep b).SessionInv := by
  have herr := (s.tstep_err b).trans (h.err_of_active ha)
  have hen : (s.tstep b).sess = .active → (s.tstep b).mode ≠ .thresh → (s.tstep b).en ≠ 0 :=
    fun _ hfull => absurd ((s.tstep_mode b).trans hmode) hfull
  obtain ⟨hactive, hresult, -⟩ | ⟨hdone, -⟩ | ⟨hdone, -⟩ := tstep_session b ha
  · exact sessionInv_of_err_none herr (.inl hactive)
      (fun hne => absurd (hresult.trans (h.result_of_active ha)) hne) hen
  all_goals exact sessionInv_of_err_none herr (.inr hdone) (fun _ => hdone) hen

end State.SessionInv

/-- Settles O57: RESET and a rejected START leave no session, ABORT a failed one, each with a clear decoder; every other step
leaves a running or a finished session without an error, and gives a result only as it ends it. -/
theorem stepKeepsSessionInv : Obligations.StepKeepsSessionInv := by
  intro s t h hstep
  refine step_keeps hstep (sessionInv_of_idle (.inl ⟨rfl, nofun⟩) rfl rfl rfl rfl) h.beginStep ?start
    (fun b ha _ => h.beginStep.fstep ha b) (fun b ha hmode => h.beginStep.tstep ha hmode b) ?endFull ?endThresh ?abort
  case start =>
    intro m e c thr budget hstart
    obtain ⟨-, rfl⟩ | ⟨md, haccepted, rfl, -⟩ | ⟨-, -, rfl⟩ := execStart_cases _ _ _ _ _ _ _ hstart
    · exact sessionInv_of_idle (.inl ⟨rfl, nofun⟩) rfl rfl rfl rfl
    · exact sessionInv_of_err_none rfl (.inl rfl) (absurd rfl) fun _ => enabled_of_acceptedMode haccepted
    · exact sessionInv_of_err_none rfl (.inr rfl) (fun _ => rfl) nofun
  case endFull | endThresh =>
    exact fun ha _ => sessionInv_of_err_none (h.err_of_active ha) (.inr rfl) (fun _ => rfl) nofun
  case abort => exact fun ha => sessionInv_of_idle (.inr ⟨rfl, rfl⟩) (h.result_of_active ha) rfl rfl rfl

/-! ### The output -/

/-- With no session and no record on the ports there is nothing to check. -/
theorem outputInv_of_none {s : State} (hsess : s.sess = .none) (hemitted : s.emitted = none) : s.OutputInv :=
  ⟨absurd hsess, absurd hsess, fun _ h => absurd (hemitted.symm.trans h) nofun⟩

/-- A session that has emitted nothing yet. -/
theorem outputInv_of_empty {s : State} (hout : s.out = []) (hemitted : s.emitted = none) : s.OutputInv :=
  ⟨fun _ _ => hout ▸ dvd_zero _, fun _ _ => hout, fun _ h => absurd (hemitted.symm.trans h) nofun⟩

namespace State.OutputInv

variable {s t : State}

theorem beginStep (h : s.OutputInv) : s.beginStep.OutputInv := ⟨h.whole_records, h.thresh_silent, nofun⟩

/-- A step within a session that emits nothing. -/
theorem of_silent (h : s.OutputInv) (ha : s.sess = .active) (hmode : t.mode = s.mode) (hen : t.en = s.en)
    (hout : t.out = s.out) (hemitted : t.emitted = none) : t.OutputInv := by
  have hsess : s.sess ≠ .none := fun hnone => absurd (ha.symm.trans hnone) nofun
  refine ⟨fun _ hfull => ?_, fun _ hthresh => ?_, fun _ hr => absurd (hemitted.symm.trans hr) nofun⟩
  · rw [hen, hout]
    exact h.whole_records hsess (hmode ▸ hfull)
  · rw [hout]
    exact h.thresh_silent hsess (hmode ▸ hthresh)

/-- FSTEP emits nothing or one whole record. -/
theorem fstep (h : s.OutputInv) (ha : s.sess = .active) (hmode : s.mode ≠ .thresh) (hemitted : s.emitted = none)
    (b : Byte) : (s.fstep b).OutputInv := by
  obtain ⟨hout, hports⟩ | ⟨-, -, -, w, hout, hports⟩ := fstep_emission s b
  · exact h.of_silent ha (s.fstep_mode b) (s.fstep_en b) hout (hports.trans hemitted)
  · have hwhole := h.whole_records (fun hnone => absurd (ha.symm.trans hnone) nofun) hmode
    refine ⟨fun _ _ => ?_, fun _ hthresh => absurd ((s.fstep_mode b).symm.trans hthresh) hmode, fun r hr => ?_⟩
    · rw [State.fstep_en, hout, List.length_append, record_length]
      exact dvd_add hwhole dvd_rfl
    · obtain rfl : record s.en w = r := Option.some.inj (hports.symm.trans hr)
      rw [State.fstep_en, record_length]

end State.OutputInv

/-- Settles O58: START empties the output, FSTEP appends whole records, and every other step within a session emits
nothing. -/
theorem stepKeepsOutputInv : Obligations.StepKeepsOutputInv := by
  intro s t h hstep
  refine step_keeps hstep (outputInv_of_none rfl rfl) h.beginStep ?start
    (fun b ha hmode => h.beginStep.fstep ha hmode rfl b) ?tstep ?endFull ?endThresh ?abort
  case start =>
    intro m e c thr budget hstart
    obtain ⟨-, -, -, -, hout, hemitted⟩ := exec_start_clears hstart
    exact outputInv_of_empty hout hemitted
  case tstep =>
    exact fun b ha _ => h.beginStep.of_silent ha (State.tstep_mode _ b) (State.tstep_en _ b) (State.tstep_out _ b)
      (State.tstep_emitted _ b)
  case endFull | endThresh => exact fun ha _ => h.of_silent ha rfl rfl rfl rfl
  case abort => exact fun ha => h.of_silent ha rfl rfl rfl rfl

/-! ### After reset -/

/-- Settles O59: after reset the decoder and the scanner are clear, there is no session and nothing has been emitted. -/
theorem resetMeetsInvariants : Obligations.ResetMeetsInvariants :=
  ⟨assemblerInv_of_clear rfl rfl, thresholdInv_of_full nofun rfl rfl rfl,
    sessionInv_of_idle (.inl ⟨rfl, nofun⟩) rfl rfl rfl rfl, outputInv_of_none rfl rfl⟩

end Sys2Proof.Machine
end

section
/-! SUPPORT. The statements of the Edge Scanner (40_edge_scanner.md): the pair events on their own and inside PUSH, the bytes
and the lines that have no effect, and NEXT_EDGE. -/

namespace Sys2Proof.Machine

/-! ### The pair events, by what SCAN finds (R104) -/

theorem exec_drdyFall_of_scan {s : State} {prev cur : Byte} (h : scanPair s.prevValid s.cc prev cur = .drdyFall) :
    exec (.drdyFall prev cur) s = .next (s.frameStart.shiftIn cur) := if_pos h

theorem exec_drdyFall_of_no_scan {s : State} {prev cur : Byte} (h : scanPair s.prevValid s.cc prev cur ≠ .drdyFall) :
    exec (.drdyFall prev cur) s = .next (s.shiftIn cur) := if_neg h

theorem exec_clkEdge_full {s : State} {prev cur : Byte} {n : BitVec 7}
    (h : scanPair s.prevValid s.cc prev cur = .clkEdge n) (hmode : s.mode ≠ .thresh) :
    exec (.clkEdge prev cur) s = .next ((s.clkStep n cur).shiftIn cur) := by
  simp only [exec, execClkEdge, h]
  cases hm : s.mode with
  | batch | stream => rfl
  | thresh => exact absurd hm hmode

theorem exec_clkEdge_thresh {s : State} {prev cur : Byte} {n : BitVec 7}
    (h : scanPair s.prevValid s.cc prev cur = .clkEdge n) (hmode : s.mode = .thresh) :
    exec (.clkEdge prev cur) s = .next ((s.targetStep n cur).shiftIn cur) := by
  simp only [exec, execClkEdge, h, hmode]

theorem exec_clkEdge_of_no_scan {s : State} {prev cur : Byte} (h : ∀ n, scanPair s.prevValid s.cc prev cur ≠ .clkEdge n) :
    exec (.clkEdge prev cur) s = .next (s.shiftIn cur) := by
  simp only [exec, execClkEdge]
  split
  case h_1 n hscan => exact absurd hscan (h n)
  all_goals rfl

theorem exec_noEdge (prev cur : Byte) (s : State) : exec (.noEdge prev cur) s = .next (s.shiftIn cur) := rfl

/-- SCAN finds a frame start between frames alone, on a falling DRDY. -/
theorem scanPair_eq_drdyFall {v : Bool} {cc : Option (BitVec 7)} {p b : Byte} (h : scanPair v cc p b = .drdyFall) :
    v = true ∧ cc = none ∧ isDrdyFall p b = true := by
  obtain ⟨-, hs⟩ | ⟨hv, hc, he, -⟩ | ⟨-, -, -, hs⟩ | ⟨-, n, -, -, hs⟩ | ⟨-, n, -, -, hs⟩ := scanPair_cases v cc p b
  case inr.inl => exact ⟨hv, hc, he⟩
  all_goals exact absurd (hs.symm.trans h) nofun

/-- SCAN finds a CLK edge inside a frame alone, with the number the counter holds. -/
theorem scanPair_eq_clkEdge {v : Bool} {cc : Option (BitVec 7)} {p b : Byte} {n : BitVec 7}
    (h : scanPair v cc p b = .clkEdge n) : v = true ∧ cc = some n ∧ isClkEdge p b = true := by
  obtain ⟨-, hs⟩ | ⟨-, -, -, hs⟩ | ⟨-, -, -, hs⟩ | ⟨hv, m, hc, he, hs⟩ | ⟨-, m, -, -, hs⟩ := scanPair_cases v cc p b
  case inr.inr.inr.inl =>
    obtain rfl : m = n := ScanEvent.clkEdge.inj (hs.symm.trans h)
    exact ⟨hv, hc, he⟩
  all_goals exact absurd (hs.symm.trans h) nofun

/-- Settles O13: with a previous byte and no open frame SCAN finds the frame start; otherwise it looks for something else. -/
theorem drdyFallStartsFrame : Obligations.DrdyFallStartsFrame := by
  intro s prev cur hprev hcur
  have hfall : isDrdyFall prev cur = true := (isDrdyFall_iff prev cur).2 ⟨hprev, hcur⟩
  refine ⟨fun hv hc => exec_drdyFall_of_scan (scanPair_drdyFall _ _ _ _ hv hc hfall), fun hother => ?_⟩
  refine exec_drdyFall_of_no_scan fun hscan => ?_
  obtain ⟨hv, hc, -⟩ := scanPair_eq_drdyFall hscan
  obtain hfirst | hopen := hother
  · exact absurd (hv.symm.trans hfirst) nofun
  · exact hopen hc

/-- Settles O14: in an open frame SCAN finds the edge that the counter numbers, and the mode says which decoder it is for;
otherwise SCAN looks for something else. -/
theorem clkEdgeIsClkStep : Obligations.ClkEdgeIsClkStep := by
  intro s prev cur hprev hcur
  have hedge : isClkEdge prev cur = true := (isClkEdge_iff prev cur).2 ⟨hprev, hcur⟩
  refine ⟨fun n hv hc hmode => exec_clkEdge_full (scanPair_clkEdge _ _ _ _ n hv hc hedge) hmode,
    fun n hv hc hmode => exec_clkEdge_thresh (scanPair_clkEdge _ _ _ _ n hv hc hedge) hmode, fun hother => ?_⟩
  refine exec_clkEdge_of_no_scan fun n hscan => ?_
  obtain ⟨hv, hc, -⟩ := scanPair_eq_clkEdge hscan
  obtain hfirst | hidle := hother
  · exact absurd (hv.symm.trans hfirst) nofun
  · exact absurd (hc.symm.trans hidle) nofun

/-- Settles O15: NO_EDGE is the shifting in of its byte. -/
theorem noEdgeOnlyShiftsIn : Obligations.NoEdgeOnlyShiftsIn := fun s prev cur => exec_noEdge prev cur s

/-! ### PUSH as the event its pair decodes to (R104, 43_batch_decoder.md R137, 45_threshold_prescanner.md R161) -/

/-- With a previous byte the pair decodes, under the gating of the counter, to the event that SCAN finds. -/
theorem decodePair_of_scan {s : State} (b : Byte) (hv : s.prevValid = true) :
    (s.scan b = .drdyFall ∧ decodePair s.frameOpen (s.prev ++ b) = .drdyFall s.prev b) ∨
    (∃ n, s.scan b = .clkEdge n ∧ decodePair s.frameOpen (s.prev ++ b) = .clkEdge s.prev b) ∨
    (s.scan b = .noEdge ∧ decodePair s.frameOpen (s.prev ++ b) = .noEdge s.prev b) := by
  obtain ⟨hfirst, -⟩ | ⟨-, hc, he, hscan⟩ | ⟨-, hc, he, hscan⟩ | ⟨-, n, hc, he, hscan⟩ | ⟨-, n, hc, he, hscan⟩ :=
    scanPair_cases s.prevValid s.cc s.prev b
  · exact absurd (hv.symm.trans hfirst) nofun
  · exact .inl ⟨hscan, by rw [State.frameOpen, hc, Option.isSome_none, decodePair_idle, if_pos he]⟩
  · exact .inr (.inr ⟨hscan, by
      rw [State.frameOpen, hc, Option.isSome_none, decodePair_idle, if_neg (Bool.eq_false_iff.1 he)]⟩)
  · exact .inr (.inl ⟨n, hscan, by rw [State.frameOpen, hc, Option.isSome_some, decodePair_open, if_pos he]⟩)
  · exact .inr (.inr ⟨hscan, by
      rw [State.frameOpen, hc, Option.isSome_some, decodePair_open, if_neg (Bool.eq_false_iff.1 he)]⟩)

theorem exec_decodePair_full {s : State} (b : Byte) (hv : s.prevValid = true) (hmode : s.mode ≠ .thresh) :
    exec (decodePair s.frameOpen (s.prev ++ b)) s = .next (s.fstep b) := by
  obtain ⟨hscan, hdecode⟩ | ⟨n, hscan, hdecode⟩ | ⟨hscan, hdecode⟩ := decodePair_of_scan b hv <;> rw [hdecode]
  · rw [exec_drdyFall_of_scan hscan, fstep_of_drdyFall hscan]
  · rw [exec_clkEdge_full hscan hmode, fstep_of_clkEdge hscan]
  · rw [exec_noEdge, fstep_of_noEdge hscan]

theorem exec_decodePair_thresh {s : State} (b : Byte) (hv : s.prevValid = true) (hmode : s.mode = .thresh) :
    exec (decodePair s.frameOpen (s.prev ++ b)) { s with scanned := s.scannedNext } = .next (s.targetByte b) := by
  obtain ⟨hscan, hdecode⟩ | ⟨n, hscan, hdecode⟩ | ⟨hscan, hdecode⟩ := decodePair_of_scan b hv <;> rw [hdecode]
  · rw [targetByte_of_drdyFall hscan]
    exact exec_drdyFall_of_scan hscan
  · rw [targetByte_of_clkEdge hscan]
    exact exec_clkEdge_thresh hscan hmode
  · rw [targetByte_of_noEdge hscan]
    exact exec_noEdge s.prev b _

/-- Settles O16: PUSH is FSTEP, or TSTEP, which checks the budget after the byte, and the event that either acts on is the
one the pair decodes to. -/
theorem pushRunsDecodedPair : Obligations.PushRunsDecodedPair := by
  intro s b hactive hv
  refine ⟨fun hmode => ?full, fun hmode => ⟨s.targetByte b, exec_decodePair_thresh b hv hmode, ?thresh⟩⟩
  case full => rw [execPush_full s b hactive hmode, exec_decodePair_full b hv hmode]
  case thresh => exact execPush_thresh s b hactive hmode

/-! ### Bytes and lines without effect (R108, 30_encoding.md R83) -/

/-- A byte equal to its predecessor is no event. -/
theorem scan_prev {s : State} (hv : s.prevValid = true) : s.scan s.prev = .noEdge := by
  cases hc : s.cc with
  | none => exact scanPair_no_drdyFall _ _ _ _ hv hc (isDrdyFall_self s.prev)
  | some n => exact scanPair_no_clkEdge _ _ _ _ n hv hc (isClkEdge_self s.prev)

theorem shiftIn_prev {s : State} (hv : s.prevValid = true) : s.shiftIn s.prev = s := by
  rw [State.shiftIn, ← hv]

/-- Settles O17: after the first byte the second is its own predecessor, so FSTEP finds no event and shifts in what is
there already. -/
theorem repeatedByteHasNoEffect : Obligations.RepeatedByteHasNoEffect := by
  intro s t b hactive hmode hpush
  obtain rfl : s.fstep b = t := Host.Outcome.next.inj ((execPush_full s b hactive hmode).symm.trans hpush)
  obtain ⟨hprev, hv⟩ := fstep_prev s b
  rw [execPush_full _ b ((s.fstep_sess b).trans hactive) (by rwa [State.fstep_mode])]
  refine congrArg Host.Outcome.next ?_
  calc (s.fstep b).fstep b = (s.fstep b).fstep (s.fstep b).prev := by rw [hprev]
    _ = (s.fstep b).shiftIn (s.fstep b).prev := fstep_of_noEdge (scan_prev hv)
    _ = s.fstep b := shiftIn_prev hv

/-- SCAN examines the line of the event it looks for alone. -/
theorem scan_congr {s : State} {b c : Byte} (hidle : s.cc = none → b &&& 0x80 = c &&& 0x80)
    (hopen : s.cc ≠ none → b &&& 0x40 = c &&& 0x40) : s.scan b = s.scan c := by
  unfold State.scan scanPair
  cases hc : s.cc with
  | none =>
    have hfall : isDrdyFall s.prev b = isDrdyFall s.prev c := by
      simp only [isDrdyFall, edge, drdyMask, hidle hc]
    simp only [hfall]
  | some n =>
    have hedge : isClkEdge s.prev b = isClkEdge s.prev c := by
      simp only [isClkEdge, edge, clkMask, hopen (hc ▸ nofun)]
    simp only [hedge]

/-- A header edge does not look at its byte (41_word_assembler.md R112). -/
theorem clkStep_of_header {s : State} {n : BitVec 7} (h : slotPos n < 8) (b c : Byte) : s.clkStep n b = s.clkStep n c := by
  simp only [State.clkStep, State.bitEdge, if_pos h]

/-- The lanes of a wired line read that line's bit alone (30_encoding.md R71). -/
theorem signLane_congr {b c : Byte} {k : Nat} (hk : k < 6) (h : lineBit b k = lineBit c k) (x : Word) :
    signLane b k x = signLane c k x := by
  have key : ∀ p q : Bool, (if p then 1 else 0 : Byte) = (if q then 1 else 0) → p = q := by decide
  rw [lineBit_eq b k hk, lineBit_eq c k hk] at h
  rw [signLane_eq b k x hk, signLane_eq c k x hk, key _ _ h]

theorem targetContrib_congr {t : BitVec 5} {n : BitVec 7} {b c : Byte} (hn : n.toNat ≤ clockSkip t + 23)
    (h : lineBit b (targetLine t) = lineBit c (targetLine t)) : targetContrib t n b = targetContrib t n c := by
  simp only [targetContrib, if_pos hn, contrib, h]

/-- An edge that the scanner consumes reads the line of the target alone. -/
theorem targetStep_congr {s : State} {n : BitVec 7} {b c : Byte} (ht : s.tch.toNat ≤ 23)
    (hn : n.toNat ≤ clockSkip s.tch + 23) (h : lineBit b (targetLine s.tch) = lineBit c (targetLine s.tch)) :
    s.targetStep n b = s.targetStep n c := by
  have hsign := signLane_congr (targetLine_lt (by omega)) h s.acc
  have hbit : s.targetBit n b = s.targetBit n c := by
    simp only [State.targetBit, State.targetSign, State.targetData, hsign, targetContrib_congr hn h]
  rw [targetStep_of_le b hn, targetStep_of_le c hn, hbit]

/-- FSTEP of two bytes in which SCAN finds the same event, and where that is a CLK edge a header edge. -/
theorem fstep_congr {s : State} {b c : Byte} (hscan : s.scan b = s.scan c)
    (hheader : ∀ n, s.scan b = .clkEdge n → slotPos n < 8) : s.fstep b = { s.fstep c with prev := b } := by
  cases h : s.scan b with
  | first => rw [fstep_of_first h, fstep_of_first (hscan.symm.trans h)]; rfl
  | drdyFall => rw [fstep_of_drdyFall h, fstep_of_drdyFall (hscan.symm.trans h)]; rfl
  | clkEdge n =>
    rw [fstep_of_clkEdge h, fstep_of_clkEdge (hscan.symm.trans h), clkStep_of_header (hheader n h) b c]
    rfl
  | noEdge => rw [fstep_of_noEdge h, fstep_of_noEdge (hscan.symm.trans h)]; rfl

/-- TSTEP of two bytes in which SCAN finds the same event and the edges do the same. -/
theorem tstep_congr {s : State} {b c : Byte} (hscan : s.scan b = s.scan c)
    (hedge : ∀ n, s.scan b = .clkEdge n →
      { s with scanned := s.scannedNext }.targetStep n b = { s with scanned := s.scannedNext }.targetStep n c) :
    s.tstep b = { s.tstep c with prev := b } := by
  have hbyte : s.targetByte b = { s.targetByte c with prev := b } := by
    cases h : s.scan b with
    | first => rw [targetByte_of_first h, targetByte_of_first (hscan.symm.trans h)]; rfl
    | drdyFall => rw [targetByte_of_drdyFall h, targetByte_of_drdyFall (hscan.symm.trans h)]; rfl
    | clkEdge n =>
      rw [targetByte_of_clkEdge h, targetByte_of_clkEdge (hscan.symm.trans h), hedge n h]
      rfl
    | noEdge => rw [targetByte_of_noEdge h, targetByte_of_noEdge (hscan.symm.trans h)]; rfl
  rw [State.tstep, State.tstep, hbyte]
  simp only [State.checkBudget]
  split <;> rfl

/-- Settles O18: SCAN finds the same event in both bytes; a CLK edge is then a header edge, or in THRESH mode one that reads
the target's line. -/
theorem ignoredLinesHaveNoEffect : Obligations.IgnoredLinesHaveNoEffect := by
  intro s b c hidle hopen
  have hscan := scan_congr hidle hopen
  refine ⟨fun hheader => fstep_congr hscan fun n hn => ?header, fun ht hrange hline => tstep_congr hscan fun n hn => ?target⟩
  case header =>
    obtain ⟨-, hc, hedge⟩ := scanPair_eq_clkEdge hn
    obtain hnone | hnot | ⟨m, hm, hpos⟩ := hheader
    · exact absurd (hc.symm.trans hnone) nofun
    · exact absurd ((isClkEdge_iff _ _).1 hedge) hnot
    · obtain rfl : m = n := Option.some.inj (hm.symm.trans hc)
      exact hpos
  case target =>
    obtain ⟨-, hc, -⟩ := scanPair_eq_clkEdge hn
    exact targetStep_congr ht (hrange n hc) hline

/-! ### NEXT_EDGE (R105) -/

/-- The pair at index `i` of a buffer is an edge of the masked line. -/
def EdgeAt (mask : Byte) (buf : List Byte) (i : Nat) : Prop :=
  ∃ a b, buf[i]? = some a ∧ buf[i + 1]? = some b ∧ a &&& mask = mask ∧ b &&& mask = 0

theorem edge_iff (a b mask : Byte) : edge a b mask = true ↔ a &&& mask = mask ∧ b &&& mask = 0 := by
  simp [edge]

theorem edgeAt_zero (mask a b : Byte) (rest : List Byte) : EdgeAt mask (a :: b :: rest) 0 ↔ edge a b mask = true := by
  rw [edge_iff]
  simp [EdgeAt]

theorem edgeAt_succ (mask a : Byte) (rest : List Byte) (i : Nat) :
    EdgeAt mask (a :: rest) (i + 1) ↔ EdgeAt mask rest i := by
  simp [EdgeAt]

theorem edgeAt_drop (mask : Byte) (buf : List Byte) (start i : Nat) :
    EdgeAt mask (buf.drop start) i ↔ EdgeAt mask buf (start + i) := by
  simp [EdgeAt, List.getElem?_drop, Nat.add_assoc]

/-- A buffer of fewer than two bytes has no pair. -/
theorem not_edgeAt_of_short {mask : Byte} {buf : List Byte} (h : buf.length ≤ 1) (i : Nat) : ¬ EdgeAt mask buf i := by
  rintro ⟨a, b, -, hb, -⟩
  obtain ⟨hlt, -⟩ := List.getElem?_eq_some_iff.1 hb
  omega

/-- What the cursor answers: the offset of the first pair that is an edge, or that no pair is. -/
theorem nextEdgeFrom_spec (mask : Byte) (buf : List Byte) (i : Nat) :
    (∃ d, nextEdgeFrom mask i buf = some (i + d) ∧ EdgeAt mask buf d ∧ ∀ j < d, ¬ EdgeAt mask buf j) ∨
    (nextEdgeFrom mask i buf = none ∧ ∀ j, ¬ EdgeAt mask buf j) := by
  induction i, buf using nextEdgeFrom.induct mask with
  | case1 i a b rest hedge =>
    exact .inl ⟨0, by rw [nextEdgeFrom, if_pos hedge]; rfl, (edgeAt_zero mask a b rest).2 hedge, nofun⟩
  | case2 i a b rest hno ih =>
    have hzero : ¬ EdgeAt mask (a :: b :: rest) 0 := mt (edgeAt_zero mask a b rest).1 hno
    rw [nextEdgeFrom, if_neg hno]
    obtain ⟨d, hsome, hedge, hleast⟩ | ⟨hnone, hall⟩ := ih
    · refine .inl ⟨d + 1, by rw [hsome, Nat.add_assoc, Nat.add_comm 1], (edgeAt_succ mask a (b :: rest) d).2 hedge, ?_⟩
      rintro (_ | j) hj
      · exact hzero
      · exact mt (edgeAt_succ mask a (b :: rest) j).1 (hleast j (by omega))
    · refine .inr ⟨hnone, ?_⟩
      rintro (_ | j)
      · exact hzero
      · exact mt (edgeAt_succ mask a (b :: rest) j).1 (hall j)
  | case3 i a => exact .inr ⟨rfl, not_edgeAt_of_short le_rfl⟩
  | case4 i => exact .inr ⟨rfl, not_edgeAt_of_short (Nat.zero_le 1)⟩

/-- NEXT_EDGE answers the least edge from the cursor on, or that there is none. -/
theorem nextEdge_spec (buf : List Byte) (start : Nat) (mask : Byte) :
    (∃ i, nextEdge buf start mask = some i ∧ start ≤ i ∧ EdgeAt mask buf i ∧
      ∀ j, start ≤ j → j < i → ¬ EdgeAt mask buf j) ∨
    (nextEdge buf start mask = none ∧ ∀ j, start ≤ j → ¬ EdgeAt mask buf j) := by
  have hfrom : ∀ j, start ≤ j → (EdgeAt mask (buf.drop start) (j - start) ↔ EdgeAt mask buf j) := by
    intro j hj
    rw [edgeAt_drop, Nat.add_sub_cancel' hj]
  obtain ⟨d, hsome, hedge, hleast⟩ | ⟨hnone, hall⟩ := nextEdgeFrom_spec mask (buf.drop start) start
  · refine .inl ⟨start + d, hsome, Nat.le_add_right start d, (edgeAt_drop mask buf start d).1 hedge, fun j hj hlt => ?_⟩
    rw [← hfrom j hj]
    exact hleast _ (by omega)
  · refine .inr ⟨hnone, fun j hj => ?_⟩
    rw [← hfrom j hj]
    exact hall _

/-- Settles O46: what NEXT_EDGE answers is a least edge or that there is none, and a least edge is unique. -/
theorem nextEdgeIsLeast : Obligations.NextEdgeIsLeast := by
  intro buf start mask isEdge
  obtain ⟨k, hsome, hk, hedge, hleast⟩ | ⟨hnone, hall⟩ := nextEdge_spec buf start mask
  · rw [hsome]
    refine ⟨fun i => ⟨?answer, ?unique⟩, nofun, fun hno => absurd hedge (hno k hk)⟩
    case answer =>
      rintro ⟨⟩
      exact ⟨hk, hedge, hleast⟩
    case unique =>
      rintro ⟨hi, hedgeAt, hleastAt⟩
      have hle : k ≤ i := not_lt.1 fun hlt => hleast i hi hlt hedgeAt
      have hge : i ≤ k := not_lt.1 fun hlt => hleastAt k hk hlt hedge
      rw [le_antisymm hle hge]
  · rw [hnone]
    exact ⟨fun i => ⟨nofun, fun ⟨hi, hedge, _⟩ => absurd hedge (hall i hi)⟩, fun _ => hall, fun _ => rfl⟩

end Sys2Proof.Machine
end

section
/-! SUPPORT. The statements on the slots of a frame (41_word_assembler.md R115, 45_threshold_prescanner.md R161): CLK_STEP and
the CLK branch of TSTEP perform the instructions that their words decode to, and over a whole frame the scanner assembles the
word of the full decoder. -/

namespace Sys2Proof.Machine

/-! ### The instructions of a slot -/

/-- The bit operation of an edge is the instruction that its SLOT word decodes to (30_encoding.md R73). -/
theorem exec_decodeSlot (s : State) (n : BitVec 7) (b : Byte) : exec (decodeSlot n b) s = .next (s.bitEdge n b) := by
  by_cases hhdr : slotPos n < 8
  · rw [decodeSlot_of_lt b hhdr, State.bitEdge, if_pos hhdr]
    rfl
  · by_cases hsign : slotPos n = 8
    · rw [decodeSlot_of_eq b hsign, State.bitEdge, if_neg hhdr, if_pos hsign]
      rfl
    · rw [State.bitEdge, if_neg hhdr, if_neg hsign]
      by_cases hlow : slotPos n < 16
      · rw [decodeSlot_of_low b (by omega) hlow]
        rfl
      · rw [decodeSlot_of_high b (by omega)]
        rfl

/-- Settles O22: the word of an edge decodes to its bit operation, and that of edge 127 alone to EMIT in addition. -/
theorem clkStepRunsDecodedSlot : Obligations.ClkStepRunsDecodedSlot := by
  intro s n b
  rw [decodeSlotDone_eq]
  refine ⟨exec_decodeSlot s n b, fun i hi => ?emit, fun x hx => ?count⟩
  case emit =>
    split at hi
    case isTrue hlast =>
      cases hi
      exact ⟨exec_emit _, if_pos hlast⟩
    case isFalse => cases hi
  case count =>
    split at hx
    case isTrue => cases hx
    case isFalse hlast => exact if_neg hlast

/-- Settles O24: REMAP leaves its value, which is the formula's, in the field for it. -/
theorem remapReturnsSlot : Obligations.RemapReturnsSlot := fun _ i => ⟨remapSlot i, rfl, rfl⟩

/-- The bit operation of a THRESH edge is the instruction that its TSLOT word decodes to (30_encoding.md R75). -/
theorem exec_decodeTslot {s : State} {n : BitVec 7} (b : Byte) (ht : s.tch.toNat < 24) (hn : n.toNat ≤ clockSkip s.tch + 23) :
    ∃ i, decodeTslot s.tch n b = .ok i ∧ exec i s = .next (s.targetBit n b) := by
  obtain ⟨hpos, hbit⟩ | ⟨hpos, hbit⟩ | ⟨hpos, hbit⟩ := targetBit_cases s n b <;> rw [hbit]
  · exact ⟨_, decodeTslot_of_lt b ht hpos, rfl⟩
  · exact ⟨_, decodeTslot_of_eq b ht hpos, rfl⟩
  · exact ⟨_, decodeTslot_of_gt b ht hpos hn, rfl⟩

/-- Settles O32: the word of an edge decodes to its bit operation, and that of the completing edge alone to TCMP in
addition. -/
theorem targetStepRunsDecodedSlot : Obligations.TargetStepRunsDecodedSlot := by
  intro s n b ht hn
  have hlegal : s.tch.toNat < 24 := by omega
  obtain ⟨i, hdecode, hexec⟩ := exec_decodeTslot b hlegal hn
  rw [decodeTslotDone_of_legal hlegal, targetStep_of_le b hn]
  refine ⟨i, hdecode, hexec, fun j hj => ?compare, fun x hx => ?count⟩
  case compare =>
    split at hj
    case isTrue hlast =>
      cases hj
      rw [if_pos hlast]
      exact exec_tcmp _ _
    case isFalse => cases hj
  case count =>
    split at hx
    case isTrue => cases hx
    case isFalse hlast => exact if_neg hlast

/-! ### One frame, seen by both decoders (45_threshold_prescanner.md R167) -/

/-- The data bit `c` of a target channel in a frame: what its line carries in the byte after the edge of that bit. -/
def targetSampleBit (t : BitVec 5) (ht : t.toNat < 24) (bytes : Fin 128 → Byte) (c : Nat) : Bool :=
  (bytes ⟨clockSkip t + 23 - c, by have hle := clockSkip_le t; omega⟩).getLsbD (lineShift ⟨targetLine t, targetLine_lt ht⟩)

theorem targetSampleBit_of_edge {t : BitVec 5} (ht : t.toNat < 24) (bytes : Fin 128 → Byte) {c : Nat} (n : Fin 128)
    (h : n.val + c = clockSkip t + 23) :
    targetSampleBit t ht bytes c = (bytes n).getLsbD (lineShift ⟨targetLine t, targetLine_lt ht⟩) := by
  have hn : (⟨clockSkip t + 23 - c, by have hle := clockSkip_le t; omega⟩ : Fin 128) = n := Fin.ext (by simp only; omega)
  rw [targetSampleBit, hn]

/-- CLK edge `n` of a frame in the full decoder. -/
def State.frameEdge (bytes : Fin 128 → Byte) (x : State) (n : Fin 128) : State :=
  x.bitEdge (BitVec.ofNat 7 n.val) (bytes n)

/-- CLK edge `n` of a frame in the scanner. -/
def State.scanEdge (bytes : Fin 128 → Byte) (x : State) (n : Fin 128) : State :=
  x.targetBit (BitVec.ofNat 7 n.val) (bytes n)

theorem toNat_ofNat_edge (n : Fin 128) : (BitVec.ofNat 7 n.val).toNat = n.val := by
  rw [BitVec.toNat_ofNat]
  omega

/-- The slot of a target channel in its group and line (42_sample_emitter.md R126, 45_threshold_prescanner.md R156). -/
theorem remapSlot_target {t : BitVec 5} (ht : t.toNat < 24) :
    (remapSlot ⟨t.toNat, ht⟩).val / 6 = targetGroup t ∧ (remapSlot ⟨t.toNat, ht⟩).val % 6 = targetLine t := by
  have hslot : (remapSlot ⟨t.toNat, ht⟩).val = 6 * (t.toNat % 4) + t.toNat / 4 := remapSlot_val _
  unfold targetGroup targetLine
  omega

/-- The full decoder: one edge carries the word of the target's slot from the data bits it held to those it holds after. -/
theorem holdsBits_frameEdge {t : BitVec 5} (ht : t.toNat < 24) (bytes : Fin 128 → Byte) (x : State) (n : Fin 128)
    (h : HoldsBits (x.readW (remapSlot ⟨t.toNat, ht⟩)) (dataEdgesBefore (targetGroup t) n.val)
      (targetSampleBit t ht bytes)) :
    HoldsBits ((x.frameEdge bytes n).readW (remapSlot ⟨t.toNat, ht⟩)) (dataEdgesBefore (targetGroup t) (n.val + 1))
      (targetSampleBit t ht bytes) := by
  obtain ⟨hgroup, hline⟩ := remapSlot_target ht
  have hstep := holdsBits_bitEdge x (BitVec.ofNat 7 n.val) (bytes n) (remapSlot ⟨t.toNat, ht⟩) (targetSampleBit t ht bytes)
  simp only [toNat_ofNat_edge, hgroup, hline] at hstep
  refine hstep (fun hg hp => targetSampleBit_of_edge ht bytes n ?_) h
  unfold clockSkip
  omega

/-- The full decoder: all 128 edges leave in the target's slot the word of its 24 bits. -/
theorem holdsBits_frame {t : BitVec 5} (ht : t.toNat < 24) (bytes : Fin 128 → Byte) (s : State)
    (hzero : ∀ i : Fin 24, s.readW i = 0) :
    HoldsBits (((List.finRange 128).foldl (State.frameEdge bytes) s).readW (remapSlot ⟨t.toNat, ht⟩)) 24
      (targetSampleBit t ht bytes) := by
  have hstart : HoldsBits (s.readW (remapSlot ⟨t.toNat, ht⟩)) (dataEdgesBefore (targetGroup t) 0)
      (targetSampleBit t ht bytes) := by
    rw [hzero]
    exact holdsBits_zero _
  have hend := foldl_finRange_induction (State.frameEdge bytes)
    (fun q x => HoldsBits (x.readW (remapSlot ⟨t.toNat, ht⟩)) (dataEdgesBefore (targetGroup t) q)
      (targetSampleBit t ht bytes)) s hstart fun n x => holdsBits_frameEdge ht bytes x n
  rwa [dataEdgesBefore_end _ 128 (by unfold targetGroup; omega)] at hend

/-- The scanner: one edge carries the accumulator from the data bits it held to those it holds after. -/
theorem holdsBits_scanEdge {t : BitVec 5} (ht : t.toNat < 24) (bytes : Fin 128 → Byte) {x : State} (htch : x.tch = t)
    {n : Fin 128} (hn : n.val ≤ clockSkip t + 23)
    (h : HoldsBits x.acc (dataEdgesBefore (targetGroup t) n.val) (targetSampleBit t ht bytes)) :
    HoldsBits (x.scanEdge bytes n).acc (dataEdgesBefore (targetGroup t) (n.val + 1)) (targetSampleBit t ht bytes) := by
  subst htch
  have hskip : clockSkip x.tch = targetGroup x.tch * 32 + 8 := rfl
  obtain ⟨hpos, hbit⟩ | ⟨hpos, hbit⟩ | ⟨hpos, hbit⟩ := targetBit_cases x (BitVec.ofNat 7 n.val) (bytes n) <;>
    rw [State.scanEdge, hbit] <;> rw [toNat_ofNat_edge] at hpos
  -- TSKIP: an edge before the word
  · rwa [dataEdgesBefore_outside _ _ (by omega)]
  -- TSIGN: data bit 23
  · obtain ⟨hnow, hnext⟩ := dataEdgesBefore_within (targetGroup x.tch) n.val (by omega) (by omega)
    have hcount : n.val % 32 - 8 = 0 := by omega
    rw [hnow, hcount] at h
    rw [hnext, hcount, State.targetSign_acc, h.eq_zero]
    exact holdsBits_signLane _ _ _ _ (targetSampleBit_of_edge ht bytes n (by omega))
  -- TDATA: one data bit more
  · obtain ⟨hnow, hnext⟩ := dataEdgesBefore_within (targetGroup x.tch) n.val (by omega) (by omega)
    rw [hnow] at h
    rw [hnext, State.targetData_acc,
      or_targetContrib _ _ (by rw [toNat_ofNat_edge]; omega) (by rw [toNat_ofNat_edge]; omega), toNat_ofNat_edge]
    exact holdsBits_dataLane _ _ _ _ _ _ _ (by omega) (by omega) (targetSampleBit_of_edge ht bytes n (by omega)) h

/-- The scanner: the edges it consumes leave in the accumulator the word of the target's 24 bits. -/
theorem holdsBits_scan {t : BitVec 5} (ht : t.toNat < 24) (bytes : Fin 128 → Byte) {u : State} (htch : u.tch = t)
    (hzero : u.acc = 0) :
    HoldsBits
      (((List.finRange 128).filter fun n => decide (n.val ≤ clockSkip t + 23)).foldl (State.scanEdge bytes) u).acc 24
      (targetSampleBit t ht bytes) := by
  rw [List.foldl_filter]
  have hend := foldl_finRange_induction
    (fun x n => if decide (n.val ≤ clockSkip t + 23) = true then x.scanEdge bytes n else x)
    (fun q x => x.tch = t ∧ HoldsBits x.acc (dataEdgesBefore (targetGroup t) q) (targetSampleBit t ht bytes))
    u ?start ?edge
  case start =>
    rw [hzero]
    exact ⟨htch, holdsBits_zero _⟩
  case edge =>
    rintro n x ⟨hx, hholds⟩
    split
    case isTrue hn =>
      exact ⟨(x.targetBit_tch _ _).trans hx, holdsBits_scanEdge ht bytes hx (of_decide_eq_true hn) hholds⟩
    case isFalse hn =>
      have hpast : clockSkip t + 23 < n.val := by simpa using hn
      rw [dataEdgesBefore_outside _ _ (by unfold clockSkip at hpast; omega)]
      exact ⟨hx, hholds⟩
  rw [dataEdgesBefore_end _ 128 (by unfold targetGroup; omega)] at hend
  exact hend.2

/-- Settles O33: both hold the 24 bits that the target's line carries in its group, and those bits make one word. -/
theorem scannerAgreesWithDecoder : Obligations.ScannerAgreesWithDecoder :=
  fun s _ bytes hzero hacc ht => (holdsBits_frame ht bytes s hzero).unique (holdsBits_scan ht bytes rfl hacc)

end Sys2Proof.Machine
end

section
/-! SUPPORT. The statements on the whole machine: which instructions complete, what they do to the session, and what alone
writes the output, the words and the latches. -/

namespace Sys2Proof.Machine

/-! ### What an instruction that chooses can do -/

section Choices

variable {s t : State}

/-- PUSH, by the session and the mode it meets (46_session_control.md R175, R178). -/
theorem exec_push_cases {b : Byte} (h : exec (.push b) s = .next t) :
    (s.sess ≠ .active ∧ t = s) ∨ (s.sess = .active ∧ s.mode ≠ .thresh ∧ t = s.fstep b) ∨
    (s.sess = .active ∧ s.mode = .thresh ∧ t = s.tstep b) := by
  by_cases ha : s.sess = .active
  · by_cases hmode : s.mode = .thresh
    · exact .inr (.inr ⟨ha, hmode, Host.Outcome.next.inj (h.symm.trans (execPush_thresh s b ha hmode))⟩)
    · exact .inr (.inl ⟨ha, hmode, Host.Outcome.next.inj (h.symm.trans (execPush_full s b ha hmode))⟩)
  · exact .inl ⟨ha, Host.Outcome.next.inj (h.symm.trans (execPush_inactive s b ha))⟩

/-- END, by the session and the mode it meets (46_session_control.md R176, R178). -/
theorem exec_end_cases (h : exec .endInput s = .next t) :
    (s.sess ≠ .active ∧ t = s) ∨ (s.sess = .active ∧ t = { s.clearDecoder with sess := .done }) ∨
    (s.sess = .active ∧ t = { s.clearDecoder with acc := 0, result := .notTriggered, sess := .done }) := by
  by_cases ha : s.sess = .active
  · by_cases hmode : s.mode = .thresh
    · exact .inr (.inr ⟨ha, Host.Outcome.next.inj (h.symm.trans (exec_end_thresh ha hmode))⟩)
    · exact .inr (.inl ⟨ha, Host.Outcome.next.inj (h.symm.trans (exec_end_full ha hmode))⟩)
  · exact .inl ⟨ha, Host.Outcome.next.inj (h.symm.trans (exec_end_inactive ha))⟩

/-- ABORT, by the session it meets (46_session_control.md R177, R178). -/
theorem exec_abort_cases (h : exec .abort s = .next t) :
    (s.sess ≠ .active ∧ t = s) ∨
    (s.sess = .active ∧ t = { { s.clearDecoder with acc := 0 }.raise .transportFailure with sess := .failed }) := by
  by_cases ha : s.sess = .active
  · exact .inr ⟨ha, Host.Outcome.next.inj (h.symm.trans (exec_abort_active ha))⟩
  · exact .inl ⟨ha, Host.Outcome.next.inj (h.symm.trans (exec_abort_inactive ha))⟩

/-- DRDY_FALL on its own: the byte is shifted in, after a frame start or after nothing (40_edge_scanner.md R104). -/
theorem exec_drdyFall_cases {prev cur : Byte} (h : exec (.drdyFall prev cur) s = .next t) :
    t = s.frameStart.shiftIn cur ∨ t = s.shiftIn cur := by
  by_cases hscan : scanPair s.prevValid s.cc prev cur = .drdyFall
  · exact .inl (Host.Outcome.next.inj (h.symm.trans (exec_drdyFall_of_scan hscan)))
  · exact .inr (Host.Outcome.next.inj (h.symm.trans (exec_drdyFall_of_no_scan hscan)))

/-- CLK_EDGE on its own: the byte is shifted in, after nothing or after the edge of the open frame in the decoder of the mode
(40_edge_scanner.md R104). -/
theorem exec_clkEdge_cases {prev cur : Byte} (h : exec (.clkEdge prev cur) s = .next t) :
    t = s.shiftIn cur ∨
    ∃ n, s.prevValid = true ∧ s.cc = some n ∧ isClkEdge prev cur = true ∧
      ((s.mode ≠ .thresh ∧ t = (s.clkStep n cur).shiftIn cur) ∨
        (s.mode = .thresh ∧ t = (s.targetStep n cur).shiftIn cur)) := by
  by_cases hscan : ∃ n, scanPair s.prevValid s.cc prev cur = .clkEdge n
  · obtain ⟨n, hscan⟩ := hscan
    obtain ⟨hv, hc, he⟩ := scanPair_eq_clkEdge hscan
    refine .inr ⟨n, hv, hc, he, ?_⟩
    by_cases hmode : s.mode = .thresh
    · exact .inr ⟨hmode, Host.Outcome.next.inj (h.symm.trans (exec_clkEdge_thresh hscan hmode))⟩
    · exact .inl ⟨hmode, Host.Outcome.next.inj (h.symm.trans (exec_clkEdge_full hscan hmode))⟩
  · exact .inl (Host.Outcome.next.inj (h.symm.trans (exec_clkEdge_of_no_scan fun n hn => hscan ⟨n, hn⟩)))

end Choices

/-- The mode that START latches is the one VALID accepted, by its code (46_session_control.md R174). -/
theorem acceptedMode_eq_some {m : BitVec 2} {e : BitVec 24} {t : BitVec 5} {md : Mode}
    (h : acceptedMode m e t = some md) : valid m e t = true ∧ md.code = m := by
  obtain ⟨-, hm⟩ | ⟨rfl, -, hvalid, hm⟩ | ⟨rfl, -, hvalid, hm⟩ | ⟨rfl, -, hvalid, hm⟩ := acceptedMode_cases m e t
  · exact absurd (hm.symm.trans h) nofun
  all_goals
    obtain rfl := Option.some.inj (hm.symm.trans h)
    exact ⟨hvalid, rfl⟩

theorem acceptedMode_eq_none {m : BitVec 2} {e : BitVec 24} {t : BitVec 5} (h : acceptedMode m e t = none) :
    valid m e t = false := by
  obtain ⟨hvalid, -⟩ | ⟨-, -, -, hm⟩ | ⟨-, -, -, hm⟩ | ⟨-, -, -, hm⟩ := acceptedMode_cases m e t
  · exact hvalid
  all_goals exact absurd (hm.symm.trans h) nofun

/-! ### Which instructions complete -/

/-- Settles O2: RESET is stated by its equation, and the state at power-on is evaluated. -/
theorem powerOnState : Obligations.PowerOnState :=
  ⟨exec_reset, readW_zero_of_w rfl, rfl, rfl, rfl, rfl, rfl, rfl, rfl, rfl, rfl, rfl, rfl, rfl, rfl, rfl⟩

/-- Settles O8: NOP is the identity, and END, ABORT and PUSH ask for an active session first. -/
theorem noEffectOutsideSession : Obligations.NoEffectOutsideSession :=
  fun s => ⟨nopChangesNothing s, fun h => ⟨exec_end_inactive h, exec_abort_inactive h, fun b => execPush_inactive s b h⟩⟩

/-- Settles O34: the ports decode to the instruction that the step fetches. -/
theorem stepRunsDecodedInstruction : Obligations.StepRunsDecodedInstruction := by
  intro s i h
  obtain rfl : s.fetch = i := Except.ok.inj h
  rfl

theorem exec_start_completes (m : BitVec 2) (e : BitVec 24) (c : BitVec 5) (thr budget : BitVec 32) (s : State) :
    ∃ t, exec (.start m e c thr budget) s = .next t := by
  by_cases hvalid : valid m e c = true
  · cases hm : acceptedMode m e c with
    | none => exact absurd (hvalid.symm.trans (acceptedMode_eq_none hm)) nofun
    | some md => exact ⟨_, exec_start_of_accepted hm thr budget s⟩
  · exact ⟨_, exec_start_of_rejected hvalid thr budget s⟩

theorem exec_end_completes (s : State) : ∃ t, exec .endInput s = .next t := by
  by_cases ha : s.sess = .active
  · by_cases hmode : s.mode = .thresh
    · exact ⟨_, exec_end_thresh ha hmode⟩
    · exact ⟨_, exec_end_full ha hmode⟩
  · exact ⟨_, exec_end_inactive ha⟩

theorem exec_abort_completes (s : State) : ∃ t, exec .abort s = .next t := by
  by_cases ha : s.sess = .active
  · exact ⟨_, exec_abort_active ha⟩
  · exact ⟨_, exec_abort_inactive ha⟩

/-- Settles O35: each of the six host operations completes in every state, and the reserved codes are refused. -/
theorem stepIsTotal : Obligations.StepIsTotal := by
  intro s
  refine ⟨?refused, fun hcode => ?completes⟩
  case refused =>
    rintro ⟨t, ht⟩ ⟨hrst, hcmd⟩
    obtain ⟨-, -, -, hstep⟩ := reservedCodesRefused s
    exact absurd (ht.symm.trans (hstep hrst hcmd)) nofun
  case completes =>
    have hfetch : s.fetch = decodeOp s.ports := rfl
    rw [step, hfetch]
    cases hrst : s.ports.rst with
    | true =>
      rw [decodeOp_of_rst hrst]
      exact ⟨_, exec_reset _⟩
    | false =>
      rw [decodeOp_of_not_rst hrst]
      have hnot5 : s.ports.cmd ≠ 5 := fun h => hcode ⟨hrst, .inl h⟩
      have hnot6 : s.ports.cmd ≠ 6 := fun h => hcode ⟨hrst, .inr (.inl h)⟩
      have hnot7 : s.ports.cmd ≠ 7 := fun h => hcode ⟨hrst, .inr (.inr h)⟩
      obtain h | h | h | h | h | h | h | h := cmd_cases s.ports.cmd
      · rw [h]; exact ⟨_, nopChangesNothing _⟩
      · rw [h]; exact exec_start_completes ..
      · rw [h]; exact execPush_completes ..
      · rw [h]; exact exec_end_completes _
      · rw [h]; exact exec_abort_completes _
      · exact absurd h hnot5
      · exact absurd h hnot6
      · exact absurd h hnot7

/-- Settles O36: neither FSTEP nor TSTEP writes `err`, and FSTEP does not write `sess`. -/
theorem byteRaisesNothing : Obligations.ByteRaisesNothing := by
  intro s b
  obtain ⟨t, ht⟩ := execPush_completes s b
  refine ⟨t, ht, ?_⟩
  obtain ⟨-, rfl⟩ | ⟨-, -, rfl⟩ | ⟨-, hmode, rfl⟩ := exec_push_cases ht
  · exact ⟨rfl, fun _ => rfl⟩
  · exact ⟨s.fstep_err b, fun _ => s.fstep_sess b⟩
  · exact ⟨s.tstep_err b, fun hfull => absurd hmode hfull⟩

/-! ### The session (46_session_control.md R180) -/

theorem start_session {m : BitVec 2} {e : BitVec 24} {c : BitVec 5} {thr budget : BitVec 32} {s t : State}
    (h : exec (.start m e c thr budget) s = .next t) :
    (valid m e c = false → t.sess = .none ∧ t.err = .malformedConfiguration) ∧
    (valid m e c = true → ¬ (m = 2 ∧ budget = 0) → t.sess = .active) ∧
    (valid m e c = true → m = 2 → budget = 0 → t.sess = .done ∧ t.result = .notTriggered) := by
  obtain ⟨hm, rfl⟩ | ⟨md, hm, rfl, hbudget⟩ | ⟨rfl, hm, rfl⟩ := execStart_cases m e c thr budget s t h
  · have hinvalid := acceptedMode_eq_none hm
    exact ⟨fun _ => ⟨rfl, rfl⟩, fun hvalid => absurd (hvalid.symm.trans hinvalid) nofun,
      fun hvalid => absurd (hvalid.symm.trans hinvalid) nofun⟩
  · obtain ⟨hvalid, rfl⟩ := acceptedMode_eq_some hm
    refine ⟨fun hinvalid => absurd (hvalid.symm.trans hinvalid) nofun, fun _ _ => rfl, fun _ hcode hzero => ?_⟩
    have hthresh : md = .thresh := by cases md with
      | thresh => rfl
      | batch | stream => cases hcode
    exact absurd hzero (hbudget hthresh)
  · obtain ⟨hvalid, rfl⟩ := acceptedMode_eq_some hm
    exact ⟨fun hinvalid => absurd (hvalid.symm.trans hinvalid) nofun, fun _ hnot => absurd ⟨rfl, rfl⟩ hnot,
      fun _ _ _ => ⟨rfl, rfl⟩⟩

/-- Outside an active session END, ABORT and PUSH leave the state as it is (46_session_control.md R178). -/
theorem exec_eq_self_of_inactive {i : Instr} {s t : State} (ha : s.sess ≠ .active)
    (hi : i = .endInput ∨ i = .abort ∨ ∃ b, i = .push b) (h : exec i s = .next t) : t = s := by
  obtain rfl | rfl | ⟨b, rfl⟩ := hi
  · exact Host.Outcome.next.inj (h.symm.trans (exec_end_inactive ha))
  · exact Host.Outcome.next.inj (h.symm.trans (exec_abort_inactive ha))
  · exact Host.Outcome.next.inj (h.symm.trans (execPush_inactive s b ha))

/-- Settles O37: row by row, from what each host operation can do. -/
theorem sessionTable : Obligations.SessionTable := by
  intro s
  refine ⟨?reset, fun m e c thr budget t h => start_session h, fun b t ha h => ⟨fun hmode => ?full, fun hmode hresult => ?thresh⟩,
    fun t ha h => ?endInput, fun t ha h => ?abort, fun i t ha hi h => by rw [exec_eq_self_of_inactive ha hi h], ?nop⟩
  case reset =>
    rintro t ⟨⟩
    rfl
  case full =>
    obtain rfl := Host.Outcome.next.inj ((execPush_full s b ha hmode).symm.trans h)
    exact (s.fstep_sess b).trans ha
  case thresh =>
    obtain rfl := Host.Outcome.next.inj ((execPush_thresh s b ha hmode).symm.trans h)
    rw [← hresult]
    exact tstep_session b ha
  case endInput =>
    obtain ⟨hinactive, -⟩ | ⟨-, rfl⟩ | ⟨-, rfl⟩ := exec_end_cases h
    · exact absurd ha hinactive
    all_goals rfl
  case abort =>
    obtain ⟨hinactive, -⟩ | ⟨-, rfl⟩ := exec_abort_cases h
    · exact absurd ha hinactive
    · exact ⟨rfl, rfl⟩
  case nop =>
    rintro t ⟨⟩
    rfl

/-! ### What alone writes the output, the words and the latches -/

/-- Settles O27: START empties the output; EMIT and CLK edge 127 of the full decoder append a record; every other instruction
leaves it. -/
theorem emissionOnlyAtEdge127 : Obligations.EmissionOnlyAtEdge127 := by
  intro i s t h hne
  cases i with
  | reserved5 | reserved6 | reserved7 => cases h
  | reset | nop | noEdge | hdr | sign | dataLo | dataHi | tskip | tsign | tdata | remap =>
    cases h
    exact absurd rfl hne
  | tcmp =>
    cases h
    exact absurd s.targetCompare_out hne
  | start m e c thr budget =>
    obtain ⟨-, -, -, -, hout, -⟩ := exec_start_clears h
    exact .inl ⟨hout, m, e, c, thr, budget, rfl⟩
  | push b =>
    obtain ⟨-, rfl⟩ | ⟨ha, hmode, rfl⟩ | ⟨-, -, rfl⟩ := exec_push_cases h
    · exact absurd rfl hne
    · obtain ⟨hout, -⟩ | ⟨hv, he, hc, w, hout, -⟩ := fstep_emission s b
      · exact absurd hout hne
      · exact .inr ⟨⟨_, hout, record_length _ _⟩, .inr ⟨hc, hv, hmode, .inl ⟨b, rfl, ha, he⟩⟩⟩
    · exact absurd (s.tstep_out b) hne
  | endInput =>
    obtain ⟨-, rfl⟩ | ⟨-, rfl⟩ | ⟨-, rfl⟩ := exec_end_cases h <;> exact absurd rfl hne
  | abort =>
    obtain ⟨-, rfl⟩ | ⟨-, rfl⟩ := exec_abort_cases h <;> exact absurd rfl hne
  | drdyFall p b =>
    obtain rfl | rfl := exec_drdyFall_cases h <;> exact absurd rfl hne
  | clkEdge p b =>
    obtain rfl | ⟨n, hv, hc, he, ⟨hmode, rfl⟩ | ⟨-, rfl⟩⟩ := exec_clkEdge_cases h
    · exact absurd rfl hne
    · rw [State.shiftIn_out, clkStep_out] at hne ⊢
      by_cases hn : n = 127
      · subst hn
        exact .inr ⟨⟨_, rfl, record_length _ _⟩, .inr ⟨hc, hv, hmode, .inr ⟨p, b, rfl, he⟩⟩⟩
      · rw [if_neg hn, List.append_nil] at hne
        exact absurd rfl hne
    · exact absurd (s.targetStep_out n b) hne
  | emit =>
    cases h
    exact .inr ⟨⟨_, rfl, record_length _ _⟩, .inl rfl⟩

/-- Settles O38: SIGN and DATA write a group, the full decoder runs them at a CLK edge of the open frame, and RESET, START,
END and ABORT clear the words; every other instruction leaves them. -/
theorem wordsWrittenOnlyByAssembler : Obligations.WordsWrittenOnlyByAssembler := by
  intro i s t h hne
  cases i with
  | reserved5 | reserved6 | reserved7 => cases h
  | nop | noEdge | hdr | tskip | tsign | tdata | remap | emit =>
    cases h
    exact absurd rfl hne
  | tcmp =>
    cases h
    exact absurd s.targetCompare_w hne
  | sign n b => exact .inl ⟨n, b, .inl rfl⟩
  | dataLo n b => exact .inl ⟨n, b, .inr (.inl rfl)⟩
  | dataHi n b => exact .inl ⟨n, b, .inr (.inr rfl)⟩
  | drdyFall p b =>
    obtain rfl | rfl := exec_drdyFall_cases h <;> exact absurd rfl hne
  | clkEdge p b =>
    obtain rfl | ⟨n, hv, hc, he, ⟨hmode, -⟩ | ⟨-, rfl⟩⟩ := exec_clkEdge_cases h
    · exact absurd rfl hne
    · exact .inr (.inl ⟨hmode, hv, by rw [hc]; nofun, .inl ⟨p, b, rfl, he⟩⟩)
    · exact absurd (s.targetStep_w n b) hne
  | push b =>
    obtain ⟨-, rfl⟩ | ⟨ha, hmode, rfl⟩ | ⟨-, -, rfl⟩ := exec_push_cases h
    · exact absurd rfl hne
    · obtain heq | ⟨-, -, -, heq⟩ | ⟨hv, he, n, hc, -⟩ := fstep_cases s b
      · exact absurd (congrArg State.w heq) hne
      · exact absurd (congrArg State.w heq) hne
      · exact .inr (.inl ⟨hmode, hv, by rw [hc]; nofun, .inr ⟨b, rfl, ha, he⟩⟩)
    · exact absurd (s.tstep_w b) hne
  | reset =>
    cases h
    exact .inr (.inr ⟨readW_zero_of_w rfl, .inl rfl⟩)
  | start m e c thr budget =>
    obtain ⟨hw, -⟩ := exec_start_clears h
    exact .inr (.inr ⟨readW_zero_of_w hw, .inr (.inl ⟨m, e, c, thr, budget, rfl⟩)⟩)
  | endInput =>
    obtain ⟨-, rfl⟩ | ⟨ha, rfl⟩ | ⟨ha, rfl⟩ := exec_end_cases h
    · exact absurd rfl hne
    all_goals exact .inr (.inr ⟨readW_zero_of_w rfl, .inr (.inr ⟨ha, .inl rfl⟩)⟩)
  | abort =>
    obtain ⟨-, rfl⟩ | ⟨ha, rfl⟩ := exec_abort_cases h
    · exact absurd rfl hne
    · exact .inr (.inr ⟨readW_zero_of_w rfl, .inr (.inr ⟨ha, .inr rfl⟩)⟩)

/-- The five latches of two states are the same (10_state.md R35). -/
def State.SameLatches (t s : State) : Prop :=
  t.mode = s.mode ∧ t.en = s.en ∧ t.tch = s.tch ∧ t.thr = s.thr ∧ t.budget = s.budget

theorem State.SameLatches.rfl {s : State} : s.SameLatches s := ⟨.refl _, .refl _, .refl _, .refl _, .refl _⟩

theorem sameLatches_clkStep (s : State) (n : BitVec 7) (b : Byte) : (s.clkStep n b).SameLatches s := by
  simp [State.SameLatches]

theorem sameLatches_targetStep (s : State) (n : BitVec 7) (b : Byte) : (s.targetStep n b).SameLatches s := by
  simp [State.SameLatches]

theorem sameLatches_targetCompare (s : State) : s.targetCompare.SameLatches s := by
  simp [State.SameLatches]

theorem sameLatches_fstep (s : State) (b : Byte) : (s.fstep b).SameLatches s := by
  simp [State.SameLatches]

theorem sameLatches_tstep (s : State) (b : Byte) : (s.tstep b).SameLatches s := by
  simp [State.SameLatches]

/-- An accepted START latches its operands, and a rejected one leaves the latches (46_session_control.md R173). -/
theorem start_latches {m : BitVec 2} {e : BitVec 24} {c : BitVec 5} {thr budget : BitVec 32} {s t : State}
    (h : exec (.start m e c thr budget) s = .next t) :
    t.SameLatches s ∨
    (Instr.start m e c thr budget = .start m t.en t.tch t.thr t.budget ∧ valid m t.en t.tch = true ∧ t.mode.code = m) := by
  obtain ⟨-, rfl⟩ | ⟨md, hm, rfl, -⟩ | ⟨-, hm, rfl⟩ := execStart_cases m e c thr budget s t h
  · exact .inl .rfl
  all_goals exact .inr ⟨rfl, acceptedMode_eq_some hm⟩

/-- What an instruction does to the latches: nothing, or it is RESET or an accepted START (10_state.md R35). -/
theorem exec_latches {i : Instr} {s t : State} (h : exec i s = .next t) :
    t.SameLatches s ∨
    (i = .reset ∧ t.mode = .batch ∧ t.en = 0 ∧ t.tch = 0 ∧ t.thr = 0 ∧ t.budget = 0) ∨
    (∃ m, i = .start m t.en t.tch t.thr t.budget ∧ valid m t.en t.tch = true ∧ t.mode.code = m) := by
  cases i with
  | reserved5 | reserved6 | reserved7 => cases h
  | nop | noEdge | hdr | sign | dataLo | dataHi | tskip | tsign | tdata | remap | emit =>
    cases h
    exact .inl .rfl
  | tcmp =>
    cases h
    exact .inl (sameLatches_targetCompare s)
  | reset =>
    cases h
    exact .inr (.inl ⟨rfl, rfl, rfl, rfl, rfl, rfl⟩)
  | start m e c thr budget => exact (start_latches h).imp_right fun hstart => .inr ⟨m, hstart⟩
  | push b =>
    obtain ⟨-, rfl⟩ | ⟨-, -, rfl⟩ | ⟨-, -, rfl⟩ := exec_push_cases h
    · exact .inl .rfl
    · exact .inl (sameLatches_fstep s b)
    · exact .inl (sameLatches_tstep s b)
  | endInput =>
    obtain ⟨-, rfl⟩ | ⟨-, rfl⟩ | ⟨-, rfl⟩ := exec_end_cases h <;> exact .inl .rfl
  | abort =>
    obtain ⟨-, rfl⟩ | ⟨-, rfl⟩ := exec_abort_cases h <;> exact .inl .rfl
  | drdyFall p b =>
    obtain rfl | rfl := exec_drdyFall_cases h <;> exact .inl .rfl
  | clkEdge p b =>
    obtain rfl | ⟨n, -, -, -, ⟨-, rfl⟩ | ⟨-, rfl⟩⟩ := exec_clkEdge_cases h
    · exact .inl .rfl
    · exact .inl (sameLatches_clkStep s n b)
    · exact .inl (sameLatches_targetStep s n b)

/-- Settles O39: of all instructions RESET and an accepted START alone write a latch. -/
theorem latchesWrittenOnlyByStart : Obligations.LatchesWrittenOnlyByStart := fun _ _ _ h => exec_latches h

/-! ### The ports (30_encoding.md R81) -/

/-- Settles O40: 0xFF is -1, and an edge number of seven bits is not negative in eight. -/
theorem counterReadsSigned : Obligations.CounterReadsSigned := by
  intro s
  have hcount : ∀ n : BitVec 7, (n.setWidth 8).toInt = n.toNat := by decide
  cases hc : s.cc with
  | none =>
    have hreg : s.ccReg.toInt = -1 := by rw [State.ccReg, hc]; decide
    have hframe : s.frameOpen = false := by rw [State.frameOpen, hc]; rfl
    exact ⟨fun _ => ⟨hreg, hframe⟩, nofun, by omega, by omega⟩
  | some n =>
    have hreg : s.ccReg.toInt = n.toNat := by rw [State.ccReg, hc]; exact hcount n
    have hframe : s.frameOpen = true := by rw [State.frameOpen, hc]; rfl
    refine ⟨nofun, ?_, by omega, by omega⟩
    rintro m ⟨⟩
    exact ⟨hreg, hframe⟩

/-- The bits of `rec_data`, byte by byte. -/
theorem getLsbD_packRecord (bytes : List Byte) (j : Nat) (hj : j < 768) :
    (packRecord bytes).getLsbD j = (bytes.getD (j / 8) 0).getLsbD (j % 8) := by
  induction bytes generalizing j with
  | nil => simp [packRecord]
  | cons b bytes ih =>
    have hcons : packRecord (b :: bytes) = packRecord bytes <<< 8 ||| b.setWidth 768 := rfl
    rw [hcons, BitVec.getLsbD_or, BitVec.getLsbD_shiftLeft, BitVec.getLsbD_setWidth, decide_eq_true hj, Bool.true_and,
      Bool.true_and]
    by_cases hlow : j < 8
    · have hdiv : j / 8 = 0 := by omega
      rw [decide_eq_true hlow, Nat.mod_eq_of_lt hlow, hdiv]
      rfl
    · have hdiv : j / 8 = (j - 8) / 8 + 1 := by omega
      have hmod : j % 8 = (j - 8) % 8 := by omega
      rw [decide_eq_false hlow, BitVec.getLsbD_of_ge b j (by omega), ih (j - 8) (by omega), hdiv, hmod, List.getD_cons_succ]
      simp

theorem extractLsb'_packRecord (bytes : List Byte) (b : Fin 96) :
    (packRecord bytes).extractLsb' (8 * b.val) 8 = bytes.getD b 0 := by
  apply BitVec.eq_of_getLsbD_eq
  intro j hj
  have hdiv : (8 * b.val + j) / 8 = b.val := by omega
  have hmod : (8 * b.val + j) % 8 = j := by omega
  rw [BitVec.getLsbD_extractLsb', decide_eq_true hj, Bool.true_and, getLsbD_packRecord bytes _ (by omega), hdiv, hmod]

/-- Settles O41: the record's length fits in seven bits and its bytes stand one after another in `rec_data`. -/
theorem recordPortsCarryRecord : Obligations.RecordPortsCarryRecord := by
  intro s
  refine ⟨fun r hr hlen => ?record, fun hnone => ?idle⟩
  case record =>
    simp only [State.outPorts, hr, Option.isSome_some, Option.getD_some]
    refine ⟨trivial, ?_, extractLsb'_packRecord r⟩
    rw [BitVec.toNat_ofNat]
    omega
  case idle =>
    simp only [State.outPorts, hnone, Option.isSome_none, Option.getD_none]
    exact ⟨trivial, rfl⟩

end Sys2Proof.Machine
end

section
/-! SUPPORT. The canonical frame of 30_encoding.md R86: what its bytes carry on each line, how the full decoder goes through
them edge by edge, and the record it emits. -/

namespace Sys2Proof.Machine

/-! ### The bytes of the canonical frame -/

/-- The bits of an OR of bytes. -/
theorem getLsbD_foldl_or {α : Type} (f : α → Byte) (l : List α) (d : Byte) (j : Nat) :
    (l.foldl (fun d k => d ||| f k) d).getLsbD j = (d.getLsbD j || l.any fun k => (f k).getLsbD j) := by
  induction l generalizing d with
  | nil => simp
  | cons k l ih => rw [List.foldl_cons, ih, BitVec.getLsbD_or, List.any_cons, Bool.or_assoc]

/-- One line of a byte: its bit alone. -/
theorem getLsbD_line (e : Bool) (k : Fin 6) {j : Nat} (hj : j < 8) :
    ((BitVec.ofBool e).setWidth 8 <<< lineShift k : Byte).getLsbD j = (e && decide (j = lineShift k)) := by
  revert e k j; decide

theorem lineShift_injective : Function.Injective lineShift := by decide

/-- The bits of an edge's byte, in the terms of the encoder's six bits. -/
theorem getLsbD_encodedLines (v : Fin 24 → BitVec 24) (h : BitVec 8) (n : Fin 128) {j : Nat} (hj : j < 8) :
    (encodedLines v h n).getLsbD j =
      (List.finRange 6).any fun k => encodedBit v h n k && decide (j = lineShift k) := by
  unfold encodedLines
  have hnone : (0 : Byte).getLsbD j = false := BitVec.getLsbD_zero
  rw [getLsbD_foldl_or, hnone, Bool.false_or]
  simp only [getLsbD_line _ _ hj]

/-- A line carries its own bit, since no other line stands at its shift. -/
theorem getLsbD_encodedLines_line (v : Fin 24 → BitVec 24) (h : BitVec 8) (n : Fin 128) (k : Fin 6) :
    (encodedLines v h n).getLsbD (lineShift k) = encodedBit v h n k := by
  rw [getLsbD_encodedLines v h n (Nat.lt_of_lt_of_le (lineShift_lt k) (by decide)), Bool.eq_iff_iff, List.any_eq_true]
  simp only [Bool.and_eq_true, decide_eq_true_eq, lineShift_injective.eq_iff]
  exact ⟨fun ⟨_, _, hbit, hk⟩ => hk ▸ hbit, fun hbit => ⟨k, List.mem_finRange k, hbit, rfl⟩⟩

/-- DRDY and CLK are no lines, so both are 0. -/
theorem getLsbD_encodedLines_high (v : Fin 24 → BitVec 24) (h : BitVec 8) (n : Fin 128) {j : Nat} (hlow : 6 ≤ j)
    (hj : j < 8) : (encodedLines v h n).getLsbD j = false := by
  rw [getLsbD_encodedLines v h n hj, List.any_eq_false]
  intro k _ hk
  have hline := lineShift_lt k
  have heq : j = lineShift k := of_decide_eq_true (Bool.and_eq_true_iff.1 hk).2
  omega

/-! ### The full decoder along the frame -/

/-- A fold over all but the last element, and then the last. -/
theorem foldl_finRange_succ {α : Type} (n : Nat) (f : α → Fin (n + 1) → α) (x : α) :
    (List.finRange (n + 1)).foldl f x =
      f ((List.finRange n).foldl (fun y j => f y j.castSucc) x) (Fin.last n) := by
  rw [List.finRange_succ_last, List.foldl_append, List.foldl_map]
  rfl

/-- The words, the output and the previous byte's presence before CLK edge `n` of the canonical frame of `v`, in a session
that was in state `s` before the frame: each word holds the data bits of its channel that have passed. -/
structure State.Carries (x s : State) (v : Fin 24 → BitVec 24) (n : Nat) : Prop where
  prevValid : x.prevValid = true
  en : x.en = s.en
  out : x.out = s.out
  words : ∀ i : Fin 24, HoldsBits (x.readW i) (dataEdgesBefore (i.val / 6) n) (v (slotChannel i)).getLsbD

/-- Before the two bytes of edge `n`: the frame is about to open, or it is open with the clock low. -/
structure State.BeforeEdge (x s : State) (v : Fin 24 → BitVec 24) (n : Nat) : Prop where
  carries : x.Carries s v n
  ready : (n = 0 ∧ x.cc = none ∧ x.prev.getLsbD 7 = true) ∨ (x.cc = some (BitVec.ofNat 7 n) ∧ x.prev.getLsbD 6 = false)

/-- The two bytes of edge `n` of the canonical frame, CLK high and CLK low (30_encoding.md R86). -/
def State.canonicalEdge (v : Fin 24 → BitVec 24) (h : BitVec 8) (x : State) (n : Fin 128) : State :=
  (x.fstep (clkMask ||| encodedLines v h n)).fstep (encodedLines v h n)

section CanonicalFrame

variable {s x : State} {v : Fin 24 → BitVec 24}

/-- The canonical frame is its first byte and then the two bytes of each edge. -/
theorem feed_encFrame (h : BitVec 8) :
    s.feed (encFrame v h) = (List.finRange 128).foldl (State.canonicalEdge v h) (s.fstep drdyMask) := by
  rw [encFrame, State.feed, List.foldl_cons, List.foldl_flatMap]
  rfl

/-- The first byte of the frame, in which DRDY is high: no event between frames. -/
theorem beforeEdge_first (hc : s.cc = none) (hzero : ∀ i : Fin 24, s.readW i = 0) :
    (s.fstep drdyMask).BeforeEdge s v 0 := by
  have hshift : s.fstep drdyMask = s.shiftIn drdyMask := by
    obtain heq | ⟨-, -, he, -⟩ | ⟨-, -, n, hn, -⟩ := fstep_cases s drdyMask
    · exact heq
    · rw [isDrdyFall_eq_bits] at he
      simp [drdyMask] at he
    · exact absurd (hc.symm.trans hn) nofun
  rw [hshift]
  have hhigh : drdyMask.getLsbD 7 = true := by decide
  refine ⟨⟨rfl, rfl, rfl, fun i => ?_⟩, .inl ⟨rfl, hc, hhigh⟩⟩
  have hword : (s.shiftIn drdyMask).readW i = 0 := hzero i
  rw [hword]
  exact holdsBits_zero _

/-- The byte with CLK high opens the frame or is no event. -/
theorem fstep_clkHigh {n : Nat} (hx : x.BeforeEdge s v n) {b : Byte} (hdrdy : b.getLsbD 7 = false) :
    (x.fstep b).Carries s v n ∧ (x.fstep b).cc = some (BitVec.ofNat 7 n) ∧ (x.fstep b).prev = b := by
  obtain ⟨⟨hv, hen, hout, hwords⟩, ⟨rfl, hc, hprev⟩ | ⟨hc, hprev⟩⟩ := hx
  · have hfall : isDrdyFall x.prev b = true := by rw [isDrdyFall_eq_bits, hprev, hdrdy]; rfl
    rw [fstep_of_drdyFall (scanPair_drdyFall _ _ _ _ hv hc hfall)]
    exact ⟨⟨rfl, hen, hout, hwords⟩, rfl, rfl⟩
  · have hedge : isClkEdge x.prev b = false := by rw [isClkEdge_eq_bits, hprev]; rfl
    rw [fstep_of_noEdge (scanPair_no_clkEdge _ _ _ _ _ hv hc hedge)]
    exact ⟨⟨rfl, hen, hout, hwords⟩, hc, rfl⟩

/-- The bit operation of edge `n` gives each word of the group its channel's next bit. -/
theorem State.Carries.bitEdge {n : Fin 128} (hx : x.Carries s v n.val) (h : BitVec 8) :
    (x.bitEdge (BitVec.ofNat 7 n.val) (encodedLines v h n)).Carries s v (n.val + 1) where
  prevValid := (x.bitEdge_prevValid _ _).trans hx.prevValid
  en := (x.bitEdge_en _ _).trans hx.en
  out := (x.bitEdge_out _ _).trans hx.out
  words i := by
    have hstep := holdsBits_bitEdge x (BitVec.ofNat 7 n.val) (encodedLines v h n) i (v (slotChannel i)).getLsbD
    simp only [toNat_ofNat_edge] at hstep
    refine hstep (fun hgroup hpos => ?_) (hx.words i)
    rw [getLsbD_encodedLines_line, encodedBit, if_neg (by omega)]
    have hchannel : slotChannel i = ⟨4 * (i.val % 6) + n.val / 32, by omega⟩ :=
      Fin.ext (by rw [slotChannel_val, ← hgroup])
    rw [hchannel]

/-- The two bytes of an edge are its CLK_STEP. -/
theorem canonicalEdge_eq {n : Fin 128} (hx : x.BeforeEdge s v n.val) (h : BitVec 8) :
    ∃ y : State, y.Carries s v n.val ∧
      x.canonicalEdge v h n = (y.clkStep (BitVec.ofNat 7 n.val) (encodedLines v h n)).shiftIn (encodedLines v h n) := by
  have hdrdy : (clkMask ||| encodedLines v h n).getLsbD 7 = false := by
    rw [BitVec.getLsbD_or, getLsbD_encodedLines_high v h n (by decide) (by decide)]
    decide
  have hclk : (clkMask ||| encodedLines v h n).getLsbD 6 = true := by
    rw [BitVec.getLsbD_or, Bool.or_eq_true]
    exact .inl (by decide)
  obtain ⟨hcarries, hc, hprev⟩ := fstep_clkHigh hx hdrdy
  refine ⟨_, hcarries, fstep_of_clkEdge (scanPair_clkEdge _ _ _ _ _ hcarries.prevValid hc ?_)⟩
  rw [hprev, isClkEdge_eq_bits, hclk, getLsbD_encodedLines_high v h n (by decide) (by decide)]
  rfl

/-- An edge before the last one. -/
theorem beforeEdge_succ {n : Fin 128} (hn : n.val < 127) (hx : x.BeforeEdge s v n.val) (h : BitVec 8) :
    (x.canonicalEdge v h n).BeforeEdge s v (n.val + 1) := by
  obtain ⟨y, hy, heq⟩ := canonicalEdge_eq hx h
  have hlast : BitVec.ofNat 7 n.val ≠ 127 := by
    intro hlast
    have hval : (BitVec.ofNat 7 n.val).toNat = 127 := by rw [hlast]; rfl
    rw [toNat_ofNat_edge] at hval
    omega
  obtain ⟨-, hen, hout, hwords⟩ := hy.bitEdge h
  rw [heq, State.clkStep, if_neg hlast]
  exact ⟨⟨rfl, hen, hout, hwords⟩,
    .inr ⟨congrArg some (BitVec.ofNat_add n.val 1).symm, getLsbD_encodedLines_high v h n (by decide) (by decide)⟩⟩

/-- All edges but the last. -/
theorem beforeEdge_last (h : BitVec 8) (hx : x.BeforeEdge s v 0) :
    ((List.finRange 127).foldl (fun y n => y.canonicalEdge v h n.castSucc) x).BeforeEdge s v 127 :=
  foldl_finRange_induction _ (fun q y => y.BeforeEdge s v q) x hx
    fun n _ hy => beforeEdge_succ (n := n.castSucc) n.isLt hy h

/-- The record of words that hold all bits of their channels (42_sample_emitter.md R127). -/
theorem record_of_carries (hx : x.Carries s v 128) :
    record x.en x.w =
      (List.finRange 24).flatMap fun (i : Fin 24) => if s.en.getLsbD i then le32 (sext24 (v i)) else [] := by
  have hword : ∀ i : Fin 24, x.w[remapSlot i] = sext24 (v i) := by
    intro i
    have hholds := hx.words (remapSlot i)
    rw [dataEdgesBefore_end _ 128 (by omega), slotChannel_remapSlot i] at hholds
    exact hholds.eq_sext24 (v i) fun _ _ => rfl
  simp only [record, hword, hx.en]

/-- The last edge emits the record and ends the frame. -/
theorem canonicalEdge_last (h : BitVec 8) (hx : x.BeforeEdge s v 127) :
    (x.canonicalEdge v h (Fin.last 127)).out = s.out ++ (List.finRange 24).flatMap
        (fun (i : Fin 24) => if s.en.getLsbD i then le32 (sext24 (v i)) else []) ∧
      (x.canonicalEdge v h (Fin.last 127)).cc = none ∧
      ∀ i : Fin 24, (x.canonicalEdge v h (Fin.last 127)).readW i = 0 := by
  obtain ⟨y, hy, heq⟩ := canonicalEdge_eq (n := Fin.last 127) hx h
  have hbits := hy.bitEdge h
  have hlast : BitVec.ofNat 7 (Fin.last 127).val = 127 := rfl
  rw [heq, State.clkStep, if_pos hlast]
  refine ⟨?_, rfl, readW_zero_of_w rfl⟩
  rw [← record_of_carries hbits, ← hbits.out]
  rfl

end CanonicalFrame

/-- Settles O47: the first byte is no event and each pair after it one CLK edge, so the words hold one data bit more at each
SIGN or DATA edge; the last edge emits them, whatever the header edges carried. -/
theorem canonicalFrameRoundTrip : Obligations.CanonicalFrameRoundTrip := by
  intro s v h hactive hmode hc hzero
  refine ⟨_, run_pushN_full (encFrame v h) s hactive hmode, ?_⟩
  rw [feed_encFrame, foldl_finRange_succ]
  exact canonicalEdge_last h (beforeEdge_last h (beforeEdge_first hc hzero))

end Sys2Proof.Machine
end
